-- ==== Sys2Proof/Word.lean ====
section
/-! DEFINITION. The words of the block: everything it moves is 32 bits wide, a double register is two such
words (10_state.md R20, R29; 20_memory.md R55). Bit 0 is the least significant bit (00_scope.md R10). -/

namespace Sys2Proof

/-- A 32-bit word: a slot, a status word, a core register, a data word of a command (R6 `SLOT_WIDTH`,
`STATUS_WIDTH`; R9 `CORE_WIDTH`). -/
abbrev Word := BitVec 32

/-- A 64-bit double-register value (R29). -/
abbrev DWord := BitVec 64

end Sys2Proof
end

