-- ==== Sys2Proof/Syntax.lean ====
section
/-! DEFINITION. The command as the block receives it (30_encoding.md R70) and the sixteen operations it can
name (R73, R76; spec/opcode_table.json), one constructor of `Instr` per row, in the table's order. -/

namespace Sys2Proof

/-- A command: a header and three data words, presented together (R70). -/
structure Command where
  hdr : Word
  d0 : Word
  d1 : Word
  d2 : Word
  deriving DecidableEq, Repr

/-- The operations. A VFP register index and a selector are natural numbers, the reading of an 8-bit field
(R72), so that an out-of-range index can be presented; a core-register index is a 4-bit field and always valid
(R36). Unused fields and data words are no operands (R73). -/
inductive Instr where
  /-- RDS, `readSingle(reg)` (R101). -/
  | rds (reg : Nat)
  /-- WRS, `writeSingle(reg, word)` (R102). -/
  | wrs (reg : Nat) (word : Word)
  /-- RDD, `readDouble(reg)` (R103). -/
  | rdd (reg : Nat)
  /-- WRD, `writeDouble(reg, value)` (R104). -/
  | wrd (reg : Nat) (value : DWord)
  /-- MSR, `moveStatusRegister(selector, value)` (R122). -/
  | msr (selector : Nat) (value : Word)
  /-- MOVS.V, `moveSingleCoreExchange(toVfp, coreReg, vfpReg)` (R124). -/
  | movsV (vfpReg : Nat) (coreReg : Fin 16)
  /-- MOVS.C, `moveSingleCoreExchange(toCore, coreReg, vfpReg)` (R123). -/
  | movsC (vfpReg : Nat) (coreReg : Fin 16)
  /-- MOVDP.V, `moveDoubleCoreExchangePaired(toVfp, coreRegLow, coreRegHigh, vfpReg)` (R126). -/
  | movdpV (vfpReg : Nat) (coreRegLow coreRegHigh : Fin 16)
  /-- MOVDP.C, `moveDoubleCoreExchangePaired(toCore, coreRegLow, coreRegHigh, vfpReg)` (R125). -/
  | movdpC (vfpReg : Nat) (coreRegLow coreRegHigh : Fin 16)
  /-- MOVDS.V, `moveDoubleCoreExchangeSplit(toVfp, coreRegA, coreRegB, vfpReg)` (R128). -/
  | movdsV (vfpReg : Nat) (coreRegA coreRegB : Fin 16)
  /-- MOVDS.C, `moveDoubleCoreExchangeSplit(toCore, coreRegA, coreRegB, vfpReg)` (R127). -/
  | movdsC (vfpReg : Nat) (coreRegA coreRegB : Fin 16)
  /-- LDI.D, `loadImmediate(false, destReg, immediate)` (R130). -/
  | ldiD (destReg : Nat) (immediate : Word)
  /-- LDI.S, `loadImmediate(true, destReg, immediate)` (R129). -/
  | ldiS (destReg : Nat) (immediate : Word)
  /-- CPY.D, `copyRegister(false, dest, src)` (R132). -/
  | cpyD (dest src : Nat)
  /-- CPY.S, `copyRegister(true, dest, src)` (R131). -/
  | cpyS (dest src : Nat)
  /-- RAISE, `raiseExceptions(exceptionBits, instructionWord, currentFpscr)` (R161). -/
  | raise (exceptionBits instructionWord currentFpscr : Word)
  deriving DecidableEq, Repr

end Sys2Proof
end

