-- ==== Sys2Proof/WellFormed.lean ====
section
/-! DEFINITION. Which operations a command can spell: every VFP register index and every selector is the
reading of an 8-bit field, 0 to 255 (30_encoding.md R72, 00_scope.md R9 `IDX_WIDTH`). Whether an index is in
its valid range is no matter of form: an out-of-range index is presented and fails (60_exceptions.md R181). -/

namespace Sys2Proof

/-- The number fits the 8-bit field `vd` or `vm` (R71, R72). -/
def fitsIndexField (n : Nat) : Bool := decide (n < 256)

/-- The operation can be written as a command. -/
def Instr.wf : Instr → Bool
  | .rds reg => fitsIndexField reg
  | .wrs reg _ => fitsIndexField reg
  | .rdd reg => fitsIndexField reg
  | .wrd reg _ => fitsIndexField reg
  | .msr selector _ => fitsIndexField selector
  | .movsV vfpReg _ => fitsIndexField vfpReg
  | .movsC vfpReg _ => fitsIndexField vfpReg
  | .movdpV vfpReg _ _ => fitsIndexField vfpReg
  | .movdpC vfpReg _ _ => fitsIndexField vfpReg
  | .movdsV vfpReg _ _ => fitsIndexField vfpReg
  | .movdsC vfpReg _ _ => fitsIndexField vfpReg
  | .ldiD destReg _ => fitsIndexField destReg
  | .ldiS destReg _ => fitsIndexField destReg
  | .cpyD dest src => fitsIndexField dest && fitsIndexField src
  | .cpyS dest src => fitsIndexField dest && fitsIndexField src
  | .raise _ _ _ => true

end Sys2Proof
end

