-- ==== Sys2Proof/Decode.lean ====
section
/-! DEFINITION. Decoding a command and encoding an operation (30_encoding.md R70 to R73, R76, R77, R79 to R81).
The decoder is total: a header that names no operation is rejected with the reason R81 gives. -/

namespace Sys2Proof

/-- The three ways a header names no command (R81). -/
inductive Reject where
  /-- `op` is 0xB to 0xF. -/
  | reservedOperation
  /-- `rsv` is not 000. -/
  | reservedBits
  /-- `f` is 1 on an operation without a variant. -/
  | reservedVariant
  deriving DecidableEq, Repr

/-! The header's fields (R71). -/

/-- `op`, bits 31:28. -/
def opField (h : Word) : Nat := (h.extractLsb' 28 4).toNat

/-- `f`, bit 27. -/
def fField (h : Word) : Bool := h.getLsbD 27

/-- `rsv`, bits 26:24. -/
def rsvField (h : Word) : Nat := (h.extractLsb' 24 3).toNat

/-- `vm`, bits 23:16, read as a natural number (R72). -/
def vmField (h : Word) : Nat := (h.extractLsb' 16 8).toNat

/-- `vd`, bits 15:8, read as a natural number (R72). -/
def vdField (h : Word) : Nat := (h.extractLsb' 8 8).toNat

/-- `t2`, bits 7:4. -/
def t2Field (h : Word) : Fin 16 := ⟨(h.extractLsb' 4 4).toNat, (h.extractLsb' 4 4).isLt⟩

/-- `t`, bits 3:0. -/
def tField (h : Word) : Fin 16 := ⟨(h.extractLsb' 0 4).toNat, (h.extractLsb' 0 4).isLt⟩

/-- The operation a command names (R73, R76, R77), or why it names none (R81). -/
def decode (c : Command) : Except Reject Instr :=
  if rsvField c.hdr ≠ 0 then .error .reservedBits
  else
    match opField c.hdr, fField c.hdr with
    | 0x0, false => .ok (.rds (vdField c.hdr))
    | 0x1, false => .ok (.wrs (vdField c.hdr) c.d0)
    | 0x2, false => .ok (.rdd (vdField c.hdr))
    | 0x3, false => .ok (.wrd (vdField c.hdr) (c.d1 ++ c.d0))
    | 0x4, false => .ok (.msr (vdField c.hdr) c.d0)
    | 0x5, false => .ok (.movsV (vdField c.hdr) (tField c.hdr))
    | 0x5, true => .ok (.movsC (vdField c.hdr) (tField c.hdr))
    | 0x6, false => .ok (.movdpV (vdField c.hdr) (tField c.hdr) (t2Field c.hdr))
    | 0x6, true => .ok (.movdpC (vdField c.hdr) (tField c.hdr) (t2Field c.hdr))
    | 0x7, false => .ok (.movdsV (vdField c.hdr) (tField c.hdr) (t2Field c.hdr))
    | 0x7, true => .ok (.movdsC (vdField c.hdr) (tField c.hdr) (t2Field c.hdr))
    | 0x8, false => .ok (.ldiD (vdField c.hdr) c.d0)
    | 0x8, true => .ok (.ldiS (vdField c.hdr) c.d0)
    | 0x9, false => .ok (.cpyD (vdField c.hdr) (vmField c.hdr))
    | 0x9, true => .ok (.cpyS (vdField c.hdr) (vmField c.hdr))
    | 0xA, false => .ok (.raise c.d0 c.d1 c.d2)
    | 0x0, true => .error .reservedVariant
    | 0x1, true => .error .reservedVariant
    | 0x2, true => .error .reservedVariant
    | 0x3, true => .error .reservedVariant
    | 0x4, true => .error .reservedVariant
    | 0xA, true => .error .reservedVariant
    | _, _ => .error .reservedOperation

/-- A header laid out field by field, `rsv` = 000 (R71: `oooof000mmmmmmmmddddddddbbbbaaaa`). -/
def packHeader (op : BitVec 4) (f : Bool) (vm vd : Nat) (t2 t : Fin 16) : Word :=
  op ++ BitVec.ofBool f ++ 0#3 ++ BitVec.ofNat 8 vm ++ BitVec.ofNat 8 vd
    ++ BitVec.ofNat 4 t2.val ++ BitVec.ofNat 4 t.val

/-- The command of an operation, every unused field and data word zero (R73, R80). -/
def encode : Instr → Command
  | .rds reg => ⟨packHeader 0x0 false 0 reg 0 0, 0, 0, 0⟩
  | .wrs reg word => ⟨packHeader 0x1 false 0 reg 0 0, word, 0, 0⟩
  | .rdd reg => ⟨packHeader 0x2 false 0 reg 0 0, 0, 0, 0⟩
  | .wrd reg value =>
    ⟨packHeader 0x3 false 0 reg 0 0, value.extractLsb' 0 32, value.extractLsb' 32 32, 0⟩
  | .msr selector value => ⟨packHeader 0x4 false 0 selector 0 0, value, 0, 0⟩
  | .movsV vfpReg coreReg => ⟨packHeader 0x5 false 0 vfpReg 0 coreReg, 0, 0, 0⟩
  | .movsC vfpReg coreReg => ⟨packHeader 0x5 true 0 vfpReg 0 coreReg, 0, 0, 0⟩
  | .movdpV vfpReg low high => ⟨packHeader 0x6 false 0 vfpReg high low, 0, 0, 0⟩
  | .movdpC vfpReg low high => ⟨packHeader 0x6 true 0 vfpReg high low, 0, 0, 0⟩
  | .movdsV vfpReg a b => ⟨packHeader 0x7 false 0 vfpReg b a, 0, 0, 0⟩
  | .movdsC vfpReg a b => ⟨packHeader 0x7 true 0 vfpReg b a, 0, 0, 0⟩
  | .ldiD destReg immediate => ⟨packHeader 0x8 false 0 destReg 0 0, immediate, 0, 0⟩
  | .ldiS destReg immediate => ⟨packHeader 0x8 true 0 destReg 0 0, immediate, 0, 0⟩
  | .cpyD dest src => ⟨packHeader 0x9 false src dest 0 0, 0, 0, 0⟩
  | .cpyS dest src => ⟨packHeader 0x9 true src dest 0 0, 0, 0, 0⟩
  | .raise bits instructionWord snapshot =>
    ⟨packHeader 0xA false 0 0 0 0, bits, instructionWord, snapshot⟩

/-- The `match` value of the operation's row under the common mask 0xFF000000 (R79). -/
def matchOf : Instr → Word
  | .rds .. => 0x00000000
  | .wrs .. => 0x10000000
  | .rdd .. => 0x20000000
  | .wrd .. => 0x30000000
  | .msr .. => 0x40000000
  | .movsV .. => 0x50000000
  | .movsC .. => 0x58000000
  | .movdpV .. => 0x60000000
  | .movdpC .. => 0x68000000
  | .movdsV .. => 0x70000000
  | .movdsC .. => 0x78000000
  | .ldiD .. => 0x80000000
  | .ldiS .. => 0x88000000
  | .cpyD .. => 0x90000000
  | .cpyS .. => 0x98000000
  | .raise .. => 0xA0000000

/-- The command whose 128 bits, header lowest and then D0, D1, D2, are the low `nbits` bits of `w`; every bit
above `nbits` is zero. -/
def commandOfTableWord (nbits w : Nat) : Command :=
  let bits := w % 2 ^ nbits
  ⟨BitVec.ofNat 32 bits, BitVec.ofNat 32 (bits >>> 32), BitVec.ofNat 32 (bits >>> 64),
    BitVec.ofNat 32 (bits >>> 96)⟩

/-- What the decoder reads from a word numbered as spec/opcode_table.json numbers it (log entry 18). -/
def decodeTableWord (nbits w : Nat) : Option Instr :=
  match decode (commandOfTableWord nbits w) with
  | .ok i => some i
  | .error _ => none

end Sys2Proof
end

