-- ==== Sys2Proof/Config.lean ====
section
/-! DEFINITION. What the spec leaves to the implementation (00_scope.md R7, R8: named parameters whose values
the source does not give) and the one free value (41_transfer_unit.md R121). The structural constants of R6
and `NUM_CORE_REGS` of R9 are fixed, so they stand in the types: 32 slots, 16 doubles, 16 core registers. -/

namespace Sys2Proof

/-- The parameters of the step (R7, R8, R16). DESIGN CHOICE (log entry 6): they are carried, unchanging, by the
state, so that a statement about every state holds for every value of them, as R7 and 91_not_in_source.md N5
ask. The six FPSID constants have the widths of their fields, so none can exceed its field (R8). -/
structure Params where
  /-- `COND_MASK`: the four condition-flag bits of FPSCR. -/
  condMask : Word
  /-- `N_FLAG`. -/
  nFlag : Word
  /-- `Z_FLAG`. -/
  zFlag : Word
  /-- `C_FLAG`. -/
  cFlag : Word
  /-- `V_FLAG`. -/
  vFlag : Word
  /-- `ERROR_SENTINEL`: the reserved value of the exception bitmask. -/
  errorSentinel : Word
  /-- `FPSID_IMPLEMENTER`. -/
  implementer : BitVec 8
  /-- `FPSID_SW`. -/
  sw : BitVec 1
  /-- `FPSID_SUBARCH`. -/
  subarch : BitVec 7
  /-- `FPSID_PARTNUM`. -/
  partnum : BitVec 8
  /-- `FPSID_VARIANT`. -/
  variant : BitVec 4
  /-- `FPSID_REVISION`. -/
  revision : BitVec 4
  deriving DecidableEq, Repr

/-- The two forms of a double exchange, kept apart as R133 asks. -/
inductive ExchangeForm where
  | paired
  | split
  deriving DecidableEq, Repr

/-- FREE VALUE (log entry 5). For the n-th draw of rule R121 by the given form: does the core register named
twice end with the high slot's word? No body, so nothing can be proved of it: both words stay possible, and the
two forms draw independently of one another. -/
opaque Config.drawHigh : ExchangeForm → Nat → Bool

end Sys2Proof
end

