-- ==== Sys2Proof/Machine/Identity.lean ====
section
/-! DEFINITION. The composed identification word FPSID (10_state.md R22) and the default values of the open
parameters (00_scope.md R7, R8). -/

namespace Sys2Proof.Machine

/-- `FPSID_VALUE`: implementer 31:24, software flag 23, subarchitecture 22:16, part number 15:8, variant 7:4,
revision 3:0 (R22). -/
def fpsidValue (p : Params) : Word :=
  p.implementer ++ p.sw ++ p.subarch ++ p.partnum ++ p.variant ++ p.revision

/-- The spec's default parameters. UNVERIFIED and DESIGN CHOICE (log entries 6, 7, 8): R7 and R8 mark every one
of them as general knowledge, not in the source; no statement may rest on them. -/
def defaultParams : Params where
  condMask := 0xF0000000
  nFlag := 0x80000000
  zFlag := 0x40000000
  cFlag := 0x20000000
  vFlag := 0x10000000
  errorSentinel := 0xFFFFFEFF
  implementer := 0x00
  sw := 0
  subarch := 0x02
  partnum := 0x01
  variant := 0x1
  revision := 0x1

end Sys2Proof.Machine
end

