-- ==== Sys2Proof/Machine/State.lean ====
section
/-! DEFINITION. The state of the block and of its environment as plain data (10_state.md R20, R36, R38;
30_encoding.md R74), the reasons a step or a command can end otherwise than OK, and the state after reset. -/

namespace Sys2Proof.Machine

/-- The failure outcomes of a command (60_exceptions.md R180 to R183). A failure never ends a run: it is
delivered as the status code of the response, with a next state (R188, R191), so `step` and `exec` answer no
`Host.Outcome.fault`; the environment keeps the failures given (`State.failures`, R190, D13). -/
inductive Fault where
  /-- Given by any command with an out-of-range VFP register index (R181), status 1. Safe: exactly what
  the spec states. -/
  | invalidRegisterIndex
  /-- Given by RAISE when the bitmask equals the sentinel (R182), status 2, carrying the instruction word.
  Safe: exactly what the spec states. -/
  | fatalFloatingPointFault (instructionWord : Word)
  /-- Given by a header that names no command (R81, R183), status 3. Safe: exactly what the spec states. -/
  | invalidCommand
  deriving DecidableEq, Repr

/-- Why a step gives no next state. -/
inductive Refusal where
  /-- Given by an arm of `exec` whose instruction has no meaning yet; no arm gives it now. Safe. -/
  | notModelled (mnemonic : String)
  /-- Given by `step` when the issuer presents nothing more: the end of a run (00_scope.md R18,
  70_reset_and_hazards.md R214). Safe: the block itself would wait (R212). -/
  | noCommand
  deriving DecidableEq, Repr

/-- The response of one command: STATUS, R0, R1 (R74). -/
structure Response where
  status : BitVec 2
  r0 : Word
  r1 : Word
  deriving DecidableEq, Repr

/-- What the environment can present between two steps: a command (R70), or a reset (R210). -/
inductive Input where
  | command (c : Command)
  | reset
  deriving DecidableEq, Repr

/-- The state of the block: these four things and nothing else (R20). The single and double views are
functions of `slots` (R31). -/
structure CoprocessorState where
  /-- FPSID, read-only (R21). -/
  fpsid : Word
  /-- FPEXC, plain storage (R23). -/
  fpexc : Word
  /-- FPSCR, plain storage (R24). -/
  fpscr : Word
  /-- s[0..31] (R27). -/
  slots : Vector Word 32
  deriving DecidableEq, Repr

/-- The block, the environment it touches, and the parameters of its step. -/
structure State where
  /-- The state of the block. -/
  vfp : CoprocessorState
  /-- The core registers x[0..15] of the integer core (R36). -/
  x : Vector Word 16
  /-- The parameters of the step, never changed (R7, R8, R16; log entry 6). -/
  params : Params
  /-- What the environment still presents, oldest first (R38; log entry 1). -/
  inputs : List Input
  /-- How many commands were taken: the position counter of R38. -/
  position : Nat
  /-- The response port: the last command's response; none before the first (R74; log entry 10). -/
  response : Option Response
  /-- The failures delivered so far, oldest first: the environment's record (R190, R191; log entry 2). -/
  failures : List Fault
  /-- The model's own: how many draws of R121 were made (log entry 5). -/
  draws : Nat
  deriving DecidableEq, Repr

/-- What a step or a meaning answers. -/
abbrev Answer := Host.Outcome State Fault Refusal

/-- The block's state after a reset event (R39). -/
def CoprocessorState.reset (p : Params) : CoprocessorState where
  fpsid := fpsidValue p
  fpexc := 0
  fpscr := 0
  slots := Vector.replicate 32 0

/-- The machine right after its first reset: the block as R39 says, nothing presented, no response, no failure.
DESIGN CHOICE: the core registers hold 0 (log entry 9) and the parameters are the spec's defaults (log entries
6, 7, 8). -/
def State.reset : State where
  vfp := CoprocessorState.reset defaultParams
  x := Vector.replicate 16 0
  params := defaultParams
  inputs := []
  position := 0
  response := none
  failures := []
  draws := 0

end Sys2Proof.Machine
end

