-- ==== Sys2Proof/Machine/Ops.lean ====
section
/-! DEFINITION. The named operations over the block's storage, the core registers and the ports, and the
delivery of an outcome: completing a command and delivering a failure (60_exceptions.md R180 to R191). There is
no return from a failure: nothing was saved and nothing changed (R191). -/

namespace Sys2Proof.Machine

/-! Storage of the block. -/

/-- s[i] (R27). -/
def readSlot (s : State) (i : Fin 32) : Word := s.vfp.slots[i]

/-- s[i] <- w: no other slot changes (R27). -/
def writeSlot (i : Fin 32) (w : Word) (s : State) : State :=
  { s with vfp := { s.vfp with slots := s.vfp.slots.set i w } }

/-- FPSCR <- w, all 32 bits (R24). -/
def writeFpscr (w : Word) (s : State) : State := { s with vfp := { s.vfp with fpscr := w } }

/-- FPEXC <- w, all 32 bits (R23). -/
def writeFpexc (w : Word) (s : State) : State := { s with vfp := { s.vfp with fpexc := w } }

/-! The core-register port (R36, R85): every index is treated alike (R37). -/

/-- x[i]. -/
def readCore (s : State) (i : Fin 16) : Word := s.x[i]

/-- x[i] <- w. -/
def writeCore (i : Fin 16) (w : Word) (s : State) : State := { s with x := s.x.set i w }

/-! Outcomes. -/

/-- A command ends OK with the result words `r0`, `r1` (R74: STATUS 0). -/
def complete (r0 r1 : Word) (s : State) : Answer :=
  .next { s with response := some ⟨0, r0, r1⟩ }

/-- The response of a failure: status 1, 2 or 3, and the instruction word of a fatal one (R74). -/
def failureResponse : Fault → Response
  | .invalidRegisterIndex => ⟨1, 0, 0⟩
  | .fatalFloatingPointFault instructionWord => ⟨2, instructionWord, 0⟩
  | .invalidCommand => ⟨3, 0, 0⟩

/-- Delivering a failure, the block's whole "trap entry" (R188): the response carries it and nothing of the
block or of the core registers changes (R180). The environment notes it (R190, D13). -/
def fail (f : Fault) (s : State) : Answer :=
  .next { s with response := some (failureResponse f), failures := s.failures ++ [f] }

/-! Inputs. -/

/-- The reset event: every piece of the block's state, and nothing else (R210, R39). -/
def resetBlock (s : State) : State := { s with vfp := CoprocessorState.reset s.params }

/-- The input at the head was a reset: `rest` remains; the position counts commands only (R38). -/
def takeReset (rest : List Input) (s : State) : State := { s with inputs := rest }

/-- The input at the head was a command: `rest` remains and the position grows by one (R38). -/
def takeCommand (rest : List Input) (s : State) : State :=
  { s with inputs := rest, position := s.position + 1 }

end Sys2Proof.Machine
end

