-- ==== Sys2Proof/Machine/Flags.lean ====
section
/-! DEFINITION. The flag computation of the block: how RAISE folds an exception bitmask into FPSCR
(42_exception_aggregator.md R161 to R164), and the reading of the four condition flags (10_state.md R25). -/

namespace Sys2Proof.Machine

/-- The bitmask carries at least one condition flag (R161 step 2). -/
def hasCondition (p : Params) (bits : Word) : Bool := bits &&& p.condMask ≠ 0

/-- Step 2: the working value, its four condition flags cleared if the bitmask has any (R163). -/
def workingValue (p : Params) (bits snapshot : Word) : Word :=
  if hasCondition p bits then snapshot &&& ~~~p.condMask else snapshot

/-- Steps 2 and 3: condition flags replace, everything else accumulates (R163, R164). -/
def aggregate (p : Params) (bits snapshot : Word) : Word := workingValue p bits snapshot ||| bits

/-- N of an FPSCR value (R25). -/
def nSet (p : Params) (fpscr : Word) : Bool := fpscr &&& p.nFlag ≠ 0

/-- Z of an FPSCR value (R25). -/
def zSet (p : Params) (fpscr : Word) : Bool := fpscr &&& p.zFlag ≠ 0

/-- C of an FPSCR value (R25). -/
def cSet (p : Params) (fpscr : Word) : Bool := fpscr &&& p.cFlag ≠ 0

/-- V of an FPSCR value (R25). -/
def vSet (p : Params) (fpscr : Word) : Bool := fpscr &&& p.vFlag ≠ 0

end Sys2Proof.Machine
end

