-- ==== Sys2Proof/Machine/ExceptionAggregator.lean ====
section
/-! DEFINITION. The ExceptionAggregator operation RAISE (42_exception_aggregator.md R160 to R165). -/

namespace Sys2Proof.Machine

/-- RAISE: the sentinel test first (R162), then the aggregation from the snapshot operand, never from the
stored FPSCR (R165), committed and returned (R161). -/
def execRaise (exceptionBits instructionWord currentFpscr : Word) (s : State) : Answer :=
  if exceptionBits = s.params.errorSentinel then fail (.fatalFloatingPointFault instructionWord) s
  else
    complete (aggregate s.params exceptionBits currentFpscr) 0
      (writeFpscr (aggregate s.params exceptionBits currentFpscr) s)

end Sys2Proof.Machine
end

