-- ==== Sys2Proof/Machine/Operands.lean ====
section
/-! DEFINITION. Every operand form: the single and double views of the slots (10_state.md R28, R29, R32), their
range checks (40_register_file.md R100), and the pair of core registers of a double exchange
(41_transfer_unit.md R121). -/

namespace Sys2Proof.Machine

/-- Checks a single-precision index and goes on with its slot: S[i] is s[i] (R28, R32). -/
def withSingle (i : Nat) (s : State) (go : Fin 32 → Answer) : Answer :=
  if h : i < 32 then go ⟨i, h⟩ else fail .invalidRegisterIndex s

/-- Checks a double-precision index and goes on with it (R29, R32). -/
def withDouble (d : Nat) (s : State) (go : Fin 16 → Answer) : Answer :=
  if h : d < 16 then go ⟨d, h⟩ else fail .invalidRegisterIndex s

/-- The even slot of D[d], its low word (R29). -/
def lowSlot (d : Fin 16) : Fin 32 := ⟨2 * d.val, by omega⟩

/-- The odd slot of D[d], its high word (R29). -/
def highSlot (d : Fin 16) : Fin 32 := ⟨2 * d.val + 1, by omega⟩

/-- D[d] = s[2d+1] : s[2d] (R29). -/
def readDouble (s : State) (d : Fin 16) : DWord := readSlot s (highSlot d) ++ readSlot s (lowSlot d)

/-- Both slots of D[d] in one step: `low` to the even slot, `high` to the odd one (R29, R56). -/
def writePair (d : Fin 16) (low high : Word) (s : State) : State :=
  writeSlot (highSlot d) high (writeSlot (lowSlot d) low s)

/-- The low word of a 64-bit value (R104). -/
def lowWord (v : DWord) : Word := v.extractLsb' 0 32

/-- The high word of a 64-bit value (R104). -/
def highWord (v : DWord) : Word := v.extractLsb' 32 32

/-- D[d] <- v (R104). -/
def writeDouble (d : Fin 16) (v : DWord) (s : State) : State := writePair d (lowWord v) (highWord v) s

/-- The to-core half of a double exchange: `low` receives `wl` and `high` receives `wh` in one step; where both
name one register, its final value is a draw between the two words, fresh each time (R121, R58; log entry 5). -/
def writeCorePair (form : ExchangeForm) (low high : Fin 16) (wl wh : Word) (s : State) : State :=
  if low = high then
    { writeCore low (if Config.drawHigh form s.draws then wh else wl) s with draws := s.draws + 1 }
  else writeCore high wh (writeCore low wl s)

end Sys2Proof.Machine
end

