-- ==== Sys2Proof/Machine/RegisterFile.lean ====
section
/-! DEFINITION. The RegisterFile operations RDS, WRS, RDD, WRD (40_register_file.md R100 to R104). -/

namespace Sys2Proof.Machine

/-- RDS (R101). -/
def execRds (reg : Nat) (s : State) : Answer :=
  withSingle reg s fun i => complete (readSlot s i) 0 s

/-- WRS (R102). -/
def execWrs (reg : Nat) (word : Word) (s : State) : Answer :=
  withSingle reg s fun i => complete 0 0 (writeSlot i word s)

/-- RDD (R103). -/
def execRdd (reg : Nat) (s : State) : Answer :=
  withDouble reg s fun d => complete (lowWord (readDouble s d)) (highWord (readDouble s d)) s

/-- WRD (R104). -/
def execWrd (reg : Nat) (value : DWord) (s : State) : Answer :=
  withDouble reg s fun d => complete 0 0 (writeDouble d value s)

end Sys2Proof.Machine
end

