-- ==== Sys2Proof/Machine/TransferUnit.lean ====
section
/-! DEFINITION. The TransferUnit operations MSR, MOVS, MOVDP, MOVDS, LDI, CPY (41_transfer_unit.md R120 to
R132). Every VFP index is checked before anything is read or written (R120). -/

namespace Sys2Proof.Machine

/-- MSR: selector 1 is FPSCR, 8 is FPEXC, any other is a silent no-op (R122, R184). -/
def execMsr (selector : Nat) (value : Word) (s : State) : Answer :=
  if selector = 1 then complete 0 0 (writeFpscr value s)
  else if selector = 8 then complete 0 0 (writeFpexc value s)
  else complete 0 0 s

/-- MOVS.V (R124). -/
def execMovsV (vfpReg : Nat) (coreReg : Fin 16) (s : State) : Answer :=
  withSingle vfpReg s fun i => complete 0 0 (writeSlot i (readCore s coreReg) s)

/-- MOVS.C (R123). -/
def execMovsC (vfpReg : Nat) (coreReg : Fin 16) (s : State) : Answer :=
  withSingle vfpReg s fun i => complete 0 0 (writeCore coreReg (readSlot s i) s)

/-- MOVDP.V (R126). -/
def execMovdpV (vfpReg : Nat) (coreRegLow coreRegHigh : Fin 16) (s : State) : Answer :=
  withDouble vfpReg s fun d =>
    complete 0 0 (writePair d (readCore s coreRegLow) (readCore s coreRegHigh) s)

/-- MOVDP.C (R125, R121). -/
def execMovdpC (vfpReg : Nat) (coreRegLow coreRegHigh : Fin 16) (s : State) : Answer :=
  withDouble vfpReg s fun d =>
    complete 0 0
      (writeCorePair .paired coreRegLow coreRegHigh (readSlot s (lowSlot d)) (readSlot s (highSlot d)) s)

/-- MOVDS.V (R128): the register operand names the slots 2v and 2v+1 as the formula is written
(90_conflicts.md C1; log entry 14). -/
def execMovdsV (vfpReg : Nat) (coreRegA coreRegB : Fin 16) (s : State) : Answer :=
  withDouble vfpReg s fun d =>
    complete 0 0 (writePair d (readCore s coreRegA) (readCore s coreRegB) s)

/-- MOVDS.C (R127, R121): the register operand as in MOVDS.V. -/
def execMovdsC (vfpReg : Nat) (coreRegA coreRegB : Fin 16) (s : State) : Answer :=
  withDouble vfpReg s fun d =>
    complete 0 0
      (writeCorePair .split coreRegA coreRegB (readSlot s (lowSlot d)) (readSlot s (highSlot d)) s)

/-- LDI.D: the immediate to the high slot, the low slot always cleared (R130). -/
def execLdiD (destReg : Nat) (immediate : Word) (s : State) : Answer :=
  withDouble destReg s fun d => complete 0 0 (writePair d 0 immediate s)

/-- LDI.S (R129). -/
def execLdiS (destReg : Nat) (immediate : Word) (s : State) : Answer :=
  withSingle destReg s fun i => complete 0 0 (writeSlot i immediate s)

/-- CPY.D: both indices checked first (R132). -/
def execCpyD (dest src : Nat) (s : State) : Answer :=
  withDouble dest s fun d => withDouble src s fun m =>
    complete 0 0 (writePair d (readSlot s (lowSlot m)) (readSlot s (highSlot m)) s)

/-- CPY.S: both indices checked first (R131). -/
def execCpyS (dest src : Nat) (s : State) : Answer :=
  withSingle dest s fun i => withSingle src s fun j => complete 0 0 (writeSlot i (readSlot s j) s)

end Sys2Proof.Machine
end

