-- ==== Sys2Proof/Machine/Dispatch.lean ====
section
/-! DEFINITION. One arm per operation of spec/opcode_table.json, in the table's order. -/

namespace Sys2Proof.Machine

def exec (i : Instr) (s : State) : Host.Outcome State Fault Refusal :=
  match i with
  -- RegisterFile
  | .rds reg => Sys2Proof.Machine.execRds reg s
  | .wrs reg word => Sys2Proof.Machine.execWrs reg word s
  | .rdd reg => Sys2Proof.Machine.execRdd reg s
  | .wrd reg value => Sys2Proof.Machine.execWrd reg value s
  -- TransferUnit
  | .msr selector value => Sys2Proof.Machine.execMsr selector value s
  | .movsV vfpReg coreReg => Sys2Proof.Machine.execMovsV vfpReg coreReg s
  | .movsC vfpReg coreReg => Sys2Proof.Machine.execMovsC vfpReg coreReg s
  | .movdpV vfpReg low high => Sys2Proof.Machine.execMovdpV vfpReg low high s
  | .movdpC vfpReg low high => Sys2Proof.Machine.execMovdpC vfpReg low high s
  | .movdsV vfpReg a b => Sys2Proof.Machine.execMovdsV vfpReg a b s
  | .movdsC vfpReg a b => Sys2Proof.Machine.execMovdsC vfpReg a b s
  | .ldiD destReg immediate => Sys2Proof.Machine.execLdiD destReg immediate s
  | .ldiS destReg immediate => Sys2Proof.Machine.execLdiS destReg immediate s
  | .cpyD dest src => Sys2Proof.Machine.execCpyD dest src s
  | .cpyS dest src => Sys2Proof.Machine.execCpyS dest src s
  -- ExceptionAggregator
  | .raise bits instructionWord snapshot => Sys2Proof.Machine.execRaise bits instructionWord snapshot s

end Sys2Proof.Machine
end

