-- ==== Sys2Proof/Machine/Fetch.lean ====
section
/-! DEFINITION. Taking the next input. The block has no program counter and fetches nothing (10_state.md R38,
20_memory.md R64): the issuer presents a command, which is decoded, checked and executed in that order
(60_exceptions.md R186), or the environment triggers a reset between two commands (R210). -/

namespace Sys2Proof.Machine

/-- A header that names no command ends with InvalidCommand (R81, R183); any other command is executed. -/
def runCommand (c : Command) (s : State) : Answer :=
  match decode c with
  | .error _ => fail .invalidCommand s
  | .ok i => exec i s

/-- The next input of the list: nothing left ends the run (R18), a reset is performed (R210), a command is run
(R60). -/
def runNext (s : State) : Answer :=
  match s.inputs with
  | [] => .refused .noCommand
  | .reset :: rest => .next (resetBlock (takeReset rest s))
  | .command c :: rest => runCommand c (takeCommand rest s)

/-- The state with one more command in front of all inputs. -/
def present (c : Command) (s : State) : State := { s with inputs := .command c :: s.inputs }

end Sys2Proof.Machine
end

