-- ==== Sys2Proof/Machine/Step.lean ====
section
/-! DEFINITION. One step of the machine: the next input, run to completion (00_scope.md R15, R17;
70_reset_and_hazards.md R222: every command is one step). -/

namespace Sys2Proof.Machine

/-- One step. -/
def step (s : State) : Host.Outcome State Fault Refusal := runNext s

/-- The state in which the given instruction word is the next command the issuer presents (log entry 1). -/
def State.withFetchWord (s : State) (nbits w : Nat) : State := present (commandOfTableWord nbits w) s

end Sys2Proof.Machine
end

