-- ==== Sys2Proof/Safety.lean ====
section
/-! DEFINITION. What the statements are written in: legal parameters, a clean run, the failure conditions of
60_exceptions.md R181 and R182, and the invariant every step keeps. -/

namespace Sys2Proof

open Sys2Proof.Machine

/-- R7's constraint on the parameters: `COND_MASK` has exactly four bits, each flag is a single bit, and the four
flags make up the mask. (That they are "the four highest of the bits the block distinguishes" says nothing more:
the block distinguishes no other bit, R26.) No meaning needs it, so no meaning checks it. -/
def Params.legal (p : Params) : Bool :=
  p.condMask.cpop == 4#32 && p.nFlag.cpop == 1#32 && p.zFlag.cpop == 1#32 && p.cFlag.cpop == 1#32
    && p.vFlag.cpop == 1#32 && p.nFlag ||| p.zFlag ||| p.cFlag ||| p.vFlag == p.condMask

namespace Machine

/-- No failure was delivered: the run so far is clean (R190, D13). -/
def State.clean (s : State) : Bool := s.failures.isEmpty

/-- The VFP register index of the operation, or one of the two of CPY, is outside its range (R181's table). -/
def badIndex : Instr → Bool
  | .rds reg => decide (31 < reg)
  | .wrs reg _ => decide (31 < reg)
  | .rdd reg => decide (15 < reg)
  | .wrd reg _ => decide (15 < reg)
  | .msr _ _ => false
  | .movsV vfpReg _ => decide (31 < vfpReg)
  | .movsC vfpReg _ => decide (31 < vfpReg)
  | .movdpV vfpReg _ _ => decide (15 < vfpReg)
  | .movdpC vfpReg _ _ => decide (15 < vfpReg)
  | .movdsV vfpReg _ _ => decide (15 < vfpReg)
  | .movdsC vfpReg _ _ => decide (15 < vfpReg)
  | .ldiD destReg _ => decide (15 < destReg)
  | .ldiS destReg _ => decide (31 < destReg)
  | .cpyD dest src => decide (15 < dest) || decide (15 < src)
  | .cpyS dest src => decide (31 < dest) || decide (31 < src)
  | .raise _ _ _ => false

/-- The operation is one of the six that use the core-register port (R85). -/
def usesCorePort : Instr → Bool
  | .movsV .. | .movsC .. | .movdpV .. | .movdpC .. | .movdsV .. | .movdsC .. => true
  | .rds .. | .wrs .. | .rdd .. | .wrd .. | .msr .. | .ldiD .. | .ldiS .. | .cpyD .. | .cpyS ..
  | .raise .. => false

/-- The operation writes core registers: a to-core exchange (R33). -/
def writesCore : Instr → Bool
  | .movsC .. | .movdpC .. | .movdsC .. => true
  | .rds .. | .wrs .. | .rdd .. | .wrd .. | .msr .. | .movsV .. | .movdpV .. | .movdsV .. | .ldiD ..
  | .ldiS .. | .cpyD .. | .cpyS .. | .raise .. => false

/-- The operation writes slots (R33). -/
def writesSlots : Instr → Bool
  | .wrs .. | .wrd .. | .movsV .. | .movdpV .. | .movdsV .. | .ldiD .. | .ldiS .. | .cpyD .. | .cpyS .. =>
    true
  | .rds .. | .rdd .. | .msr .. | .movsC .. | .movdpC .. | .movdsC .. | .raise .. => false

/-- A to-core double exchange that names one core register twice: the only draw there is (R121). -/
def drawsAValue : Instr → Bool
  | .movdpC _ low high => decide (low = high)
  | .movdsC _ a b => decide (a = b)
  | .rds .. | .wrs .. | .rdd .. | .wrd .. | .msr .. | .movsV .. | .movsC .. | .movdpV .. | .movdsV ..
  | .ldiD .. | .ldiS .. | .cpyD .. | .cpyS .. | .raise .. => false

/-- The state in which an index failure leaves the machine: only the response and the environment's record
differ (R180, R181). -/
def indexFailed (s : State) : State :=
  { s with response := some ⟨1, 0, 0⟩, failures := s.failures ++ [.invalidRegisterIndex] }

/-- The state in which a reserved header leaves the machine (R183). -/
def commandRejected (s : State) : State :=
  { s with response := some ⟨3, 0, 0⟩, failures := s.failures ++ [.invalidCommand] }

/-- The header bits the operation uses: `op`, `f`, `rsv` and the fields that R73 does not mark with a dash. -/
def usedHeader : Instr → Word
  | .rds .. | .wrs .. | .rdd .. | .wrd .. | .msr .. | .ldiD .. | .ldiS .. => 0xFF00FF00
  | .movsV .. | .movsC .. => 0xFF00FF0F
  | .movdpV .. | .movdpC .. | .movdsV .. | .movdsC .. => 0xFF00FFFF
  | .cpyD .. | .cpyS .. => 0xFFFFFF00
  | .raise .. => 0xFF000000

/-- The operation uses `D0` (R73). -/
def usesD0 : Instr → Bool
  | .wrs .. | .wrd .. | .msr .. | .ldiD .. | .ldiS .. | .raise .. => true
  | .rds .. | .rdd .. | .movsV .. | .movsC .. | .movdpV .. | .movdpC .. | .movdsV .. | .movdsC .. | .cpyD ..
  | .cpyS .. => false

/-- The operation uses `D1` (R73). -/
def usesD1 : Instr → Bool
  | .wrd .. | .raise .. => true
  | .rds .. | .wrs .. | .rdd .. | .msr .. | .movsV .. | .movsC .. | .movdpV .. | .movdpC .. | .movdsV ..
  | .movdsC .. | .ldiD .. | .ldiS .. | .cpyD .. | .cpyS .. => false

/-- The operation uses `D2` (R73). -/
def usesD2 : Instr → Bool
  | .raise .. => true
  | .rds .. | .wrs .. | .rdd .. | .wrd .. | .msr .. | .movsV .. | .movsC .. | .movdpV .. | .movdpC ..
  | .movdsV .. | .movdsC .. | .ldiD .. | .ldiS .. | .cpyD .. | .cpyS .. => false

/-- `n` steps of the machine, one after the other. -/
def runSteps (n : Nat) (s : State) : Answer := Host.Core.run Sys2Proof.core n s

/-- How many of the inputs are commands. -/
def commandCount : List Input → Nat
  | [] => 0
  | .command _ :: rest => commandCount rest + 1
  | .reset :: rest => commandCount rest

/-- What every step keeps: FPSID is the composed constant (R21); a response stands exactly when some command was
taken (R74); no more failures than commands; and a response that is not OK is that of the last failure recorded
(R74, R188). -/
structure State.Inv (s : State) : Prop where
  fpsid_fixed : s.vfp.fpsid = fpsidValue s.params
  responded : s.response = none ↔ s.position = 0
  failures_le : s.failures.length ≤ s.position
  response_legal : ∀ r, s.response = some r →
    r.status = 0 ∨ ∃ f, s.failures.getLast? = some f ∧ r = failureResponse f

end Machine

end Sys2Proof
end

