-- ==== Sys2Proof/Certificates/Slice0/Obligations.lean ====
section
/-! DEFINITION. The statements for the provers. Each docstring names the rule of spec/ it formalises. A next state
written as a record update of the state before states the whole frame: every field not named is unchanged. In the failure
clauses `failures := f` leaves open what the environment's record holds (log entry 2); the statements
EveryOperationHasOneOutcome and StepKeepsTheInvariant are about it. -/

open Sys2Proof Sys2Proof.Machine

/-! RegisterFile (40_register_file.md). -/

/-- R101: RDS. -/
def Obligations.RdsReturnsTheSlot : Prop :=
  (∀ c : Command, c.hdr &&& 0xFF000000#32 = 0x00000000#32 → decode c = .ok (.rds (vdField c.hdr))) ∧
  (∀ (s : State) (reg : Fin 32),
    exec (.rds reg) s = .next { s with response := some ⟨0, s.vfp.slots[reg], 0⟩ }) ∧
  (∀ (s : State) (reg : Nat), 32 ≤ reg →
    ∃ f, exec (.rds reg) s = .next { s with response := some ⟨1, 0, 0⟩, failures := f }) ∧
  (∀ reg : Fin 32, exec (.rds reg) State.reset = .next { State.reset with response := some ⟨0, 0, 0⟩ })

/-- R102: WRS. -/
def Obligations.WrsWritesTheSlot : Prop :=
  (∀ c : Command, c.hdr &&& 0xFF000000#32 = 0x10000000#32 → decode c = .ok (.wrs (vdField c.hdr) c.d0)) ∧
  (∀ (s : State) (reg : Fin 32) (w : Word),
    exec (.wrs reg w) s =
      .next { s with vfp := { s.vfp with slots := s.vfp.slots.set reg w }, response := some ⟨0, 0, 0⟩ }) ∧
  (∀ (s : State) (reg : Nat) (w : Word), 32 ≤ reg →
    ∃ f, exec (.wrs reg w) s = .next { s with response := some ⟨1, 0, 0⟩, failures := f }) ∧
  (∀ (s t : State) (reg : Fin 32) (w : Word), exec (.wrs reg w) s = .next t →
    ∃ u, exec (.rds reg) t = .next u ∧ u.response = some ⟨0, w, 0⟩)

/-- R103: RDD. -/
def Obligations.RddReturnsLowThenHigh : Prop :=
  (∀ c : Command, c.hdr &&& 0xFF000000#32 = 0x20000000#32 → decode c = .ok (.rdd (vdField c.hdr))) ∧
  (∀ (s : State) (d : Fin 16),
    exec (.rdd d) s =
      .next { s with response := some ⟨0, s.vfp.slots[2 * d.val], s.vfp.slots[2 * d.val + 1]⟩ }) ∧
  (∀ (s : State) (d : Nat), 16 ≤ d →
    ∃ f, exec (.rdd d) s = .next { s with response := some ⟨1, 0, 0⟩, failures := f })

/-- R104: WRD. -/
def Obligations.WrdWritesBothSlots : Prop :=
  (∀ c : Command, c.hdr &&& 0xFF000000#32 = 0x30000000#32 →
    decode c = .ok (.wrd (vdField c.hdr) (c.d1 ++ c.d0))) ∧
  (∀ (s : State) (d : Fin 16) (lo hi : Word),
    exec (.wrd d (hi ++ lo)) s =
      .next { s with
        vfp := { s.vfp with slots := (s.vfp.slots.set (2 * d.val) lo).set (2 * d.val + 1) hi },
        response := some ⟨0, 0, 0⟩ }) ∧
  (∀ (s : State) (d : Nat) (v : DWord), 16 ≤ d →
    ∃ f, exec (.wrd d v) s = .next { s with response := some ⟨1, 0, 0⟩, failures := f })

/-- R105: the whole table of laws of the four operations. -/
def Obligations.RegisterFileLaws : Prop :=
  -- single round trip
  (∀ (s t : State) (r : Fin 32) (v : Word), exec (.wrs r v) s = .next t →
    ∃ u, exec (.rds r) t = .next u ∧ u.response = some ⟨0, v, 0⟩) ∧
  -- double round trip, and the double seen as singles
  (∀ (s t : State) (d : Fin 16) (lo hi : Word), exec (.wrd d (hi ++ lo)) s = .next t →
    (∃ u, exec (.rdd d) t = .next u ∧ u.response = some ⟨0, lo, hi⟩) ∧
    (∃ u, exec (.rds (2 * d.val)) t = .next u ∧ u.response = some ⟨0, lo, 0⟩) ∧
    (∃ u, exec (.rds (2 * d.val + 1)) t = .next u ∧ u.response = some ⟨0, hi, 0⟩)) ∧
  -- singles seen as a double, in either order
  (∀ (s t u : State) (d : Fin 16) (a b : Word),
    (exec (.wrs (2 * d.val) a) s = .next t ∧ exec (.wrs (2 * d.val + 1) b) t = .next u) ∨
      (exec (.wrs (2 * d.val + 1) b) s = .next t ∧ exec (.wrs (2 * d.val) a) t = .next u) →
    ∃ v, exec (.rdd d) u = .next v ∧ v.response = some ⟨0, a, b⟩) ∧
  -- frame, single
  (∀ (s t : State) (r j : Fin 32) (v : Word), exec (.wrs r v) s = .next t → j ≠ r →
    t.vfp.slots[j] = s.vfp.slots[j]) ∧
  -- frame, double
  (∀ (s t : State) (d : Fin 16) (j : Fin 32) (w : DWord), exec (.wrd d w) s = .next t →
    j.val ≠ 2 * d.val → j.val ≠ 2 * d.val + 1 → t.vfp.slots[j] = s.vfp.slots[j]) ∧
  -- status frame, read purity and failure frame
  (∀ (s t : State) (i : Instr),
    (∃ r, i = .rds r) ∨ (∃ r v, i = .wrs r v) ∨ (∃ d, i = .rdd d) ∨ (∃ d w, i = .wrd d w) →
    exec i s = .next t →
    (t.vfp.fpsid = s.vfp.fpsid ∧ t.vfp.fpexc = s.vfp.fpexc ∧ t.vfp.fpscr = s.vfp.fpscr ∧ t.x = s.x) ∧
    ((∃ r, i = .rds r) ∨ (∃ d, i = .rdd d) → t.vfp = s.vfp) ∧
    (badIndex i = true → t.vfp = s.vfp))

/-! TransferUnit (41_transfer_unit.md). -/

/-- R122: MSR, with R184: no selector is a failure. -/
def Obligations.MsrRoutesBySelector : Prop :=
  (∀ c : Command, c.hdr &&& 0xFF000000#32 = 0x40000000#32 → decode c = .ok (.msr (vdField c.hdr) c.d0)) ∧
  (∀ (s : State) (v : Word),
    exec (.msr 1 v) s = .next { s with vfp := { s.vfp with fpscr := v }, response := some ⟨0, 0, 0⟩ }) ∧
  (∀ (s : State) (v : Word),
    exec (.msr 8 v) s = .next { s with vfp := { s.vfp with fpexc := v }, response := some ⟨0, 0, 0⟩ }) ∧
  (∀ (s : State) (sel : Nat) (v : Word), sel ≠ 1 → sel ≠ 8 →
    exec (.msr sel v) s = .next { s with response := some ⟨0, 0, 0⟩ })

/-- R123: MOVS.C. -/
def Obligations.MovsToCoreCopiesTheSlot : Prop :=
  (∀ c : Command, c.hdr &&& 0xFF000000#32 = 0x58000000#32 →
    decode c = .ok (.movsC (vdField c.hdr) (tField c.hdr))) ∧
  (∀ (s : State) (reg : Fin 32) (t : Fin 16),
    exec (.movsC reg t) s =
      .next { s with x := s.x.set t s.vfp.slots[reg], response := some ⟨0, 0, 0⟩ }) ∧
  (∀ (s : State) (reg : Nat) (t : Fin 16), 32 ≤ reg →
    ∃ f, exec (.movsC reg t) s = .next { s with response := some ⟨1, 0, 0⟩, failures := f })

/-- R124: MOVS.V. -/
def Obligations.MovsToVfpCopiesTheCoreRegister : Prop :=
  (∀ c : Command, c.hdr &&& 0xFF000000#32 = 0x50000000#32 →
    decode c = .ok (.movsV (vdField c.hdr) (tField c.hdr))) ∧
  (∀ (s : State) (reg : Fin 32) (t : Fin 16),
    exec (.movsV reg t) s =
      .next { s with
        vfp := { s.vfp with slots := s.vfp.slots.set reg s.x[t] }, response := some ⟨0, 0, 0⟩ }) ∧
  (∀ (s : State) (reg : Nat) (t : Fin 16), 32 ≤ reg →
    ∃ f, exec (.movsV reg t) s = .next { s with response := some ⟨1, 0, 0⟩, failures := f })

/-- R125: MOVDP.C; where both core registers are one, the value is one of the two words (R121); nothing is
said of the model's own draw counter. -/
def Obligations.MovdpToCoreSplitsTheDouble : Prop :=
  (∀ c : Command, c.hdr &&& 0xFF000000#32 = 0x68000000#32 →
    decode c = .ok (.movdpC (vdField c.hdr) (tField c.hdr) (t2Field c.hdr))) ∧
  (∀ (s : State) (d low high : Fin 16), low ≠ high →
    exec (.movdpC d low high) s =
      .next { s with
        x := (s.x.set high s.vfp.slots[2 * d.val + 1]).set low s.vfp.slots[2 * d.val],
        response := some ⟨0, 0, 0⟩ }) ∧
  (∀ (s : State) (d r : Fin 16), ∃ w n, (w = s.vfp.slots[2 * d.val] ∨ w = s.vfp.slots[2 * d.val + 1]) ∧
    exec (.movdpC d r r) s =
      .next { s with x := s.x.set r w, draws := n, response := some ⟨0, 0, 0⟩ }) ∧
  (∀ (s : State) (d : Nat) (low high : Fin 16), 16 ≤ d →
    ∃ f, exec (.movdpC d low high) s = .next { s with response := some ⟨1, 0, 0⟩, failures := f })

/-- R126: MOVDP.V. -/
def Obligations.MovdpToVfpJoinsTwoCoreRegisters : Prop :=
  (∀ c : Command, c.hdr &&& 0xFF000000#32 = 0x60000000#32 →
    decode c = .ok (.movdpV (vdField c.hdr) (tField c.hdr) (t2Field c.hdr))) ∧
  (∀ (s : State) (d low high : Fin 16),
    exec (.movdpV d low high) s =
      .next { s with
        vfp := { s.vfp with
          slots := (s.vfp.slots.set (2 * d.val) s.x[low]).set (2 * d.val + 1) s.x[high] },
        response := some ⟨0, 0, 0⟩ }) ∧
  (∀ (s : State) (d : Nat) (low high : Fin 16), 16 ≤ d →
    ∃ f, exec (.movdpV d low high) s = .next { s with response := some ⟨1, 0, 0⟩, failures := f })

/-- R127: MOVDS.C; where both core registers are one, the value is one of the two words (R121); nothing is
said of the model's own draw counter. It rests on 90_conflicts.md C1 (the operand is scaled by 2). -/
def Obligations.MovdsToCoreCopiesTheSlotPair : Prop :=
  (∀ c : Command, c.hdr &&& 0xFF000000#32 = 0x78000000#32 →
    decode c = .ok (.movdsC (vdField c.hdr) (tField c.hdr) (t2Field c.hdr))) ∧
  (∀ (s : State) (d a b : Fin 16), a ≠ b →
    exec (.movdsC d a b) s =
      .next { s with
        x := (s.x.set a s.vfp.slots[2 * d.val]).set b s.vfp.slots[2 * d.val + 1],
        response := some ⟨0, 0, 0⟩ }) ∧
  (∀ (s : State) (d r : Fin 16), ∃ w n, (w = s.vfp.slots[2 * d.val] ∨ w = s.vfp.slots[2 * d.val + 1]) ∧
    exec (.movdsC d r r) s =
      .next { s with x := s.x.set r w, draws := n, response := some ⟨0, 0, 0⟩ }) ∧
  (∀ (s : State) (d : Nat) (a b : Fin 16), 16 ≤ d →
    ∃ f, exec (.movdsC d a b) s = .next { s with response := some ⟨1, 0, 0⟩, failures := f })

/-- R128: MOVDS.V. It rests on 90_conflicts.md C1 (the operand is scaled by 2). -/
def Obligations.MovdsToVfpWritesTheSlotPair : Prop :=
  (∀ c : Command, c.hdr &&& 0xFF000000#32 = 0x70000000#32 →
    decode c = .ok (.movdsV (vdField c.hdr) (tField c.hdr) (t2Field c.hdr))) ∧
  (∀ (s : State) (d a b : Fin 16),
    exec (.movdsV d a b) s =
      .next { s with
        vfp := { s.vfp with
          slots := (s.vfp.slots.set (2 * d.val) s.x[a]).set (2 * d.val + 1) s.x[b] },
        response := some ⟨0, 0, 0⟩ }) ∧
  (∀ (s : State) (d : Nat) (a b : Fin 16), 16 ≤ d →
    ∃ f, exec (.movdsV d a b) s = .next { s with response := some ⟨1, 0, 0⟩, failures := f })

/-- R129: LDI.S, and that its effect is that of WRS. -/
def Obligations.LdiSingleWritesTheImmediate : Prop :=
  (∀ c : Command, c.hdr &&& 0xFF000000#32 = 0x88000000#32 → decode c = .ok (.ldiS (vdField c.hdr) c.d0)) ∧
  (∀ (s : State) (reg : Fin 32) (w : Word),
    exec (.ldiS reg w) s =
      .next { s with vfp := { s.vfp with slots := s.vfp.slots.set reg w }, response := some ⟨0, 0, 0⟩ }) ∧
  (∀ (s : State) (reg : Nat) (w : Word), 32 ≤ reg →
    ∃ f, exec (.ldiS reg w) s = .next { s with response := some ⟨1, 0, 0⟩, failures := f }) ∧
  (∀ (s : State) (reg : Nat) (w : Word), exec (.ldiS reg w) s = exec (.wrs reg w) s)

/-- R130: LDI.D. -/
def Obligations.LdiDoubleClearsTheLowSlot : Prop :=
  (∀ c : Command, c.hdr &&& 0xFF000000#32 = 0x80000000#32 → decode c = .ok (.ldiD (vdField c.hdr) c.d0)) ∧
  (∀ (s : State) (d : Fin 16) (w : Word),
    exec (.ldiD d w) s =
      .next { s with
        vfp := { s.vfp with slots := (s.vfp.slots.set (2 * d.val + 1) w).set (2 * d.val) 0 },
        response := some ⟨0, 0, 0⟩ }) ∧
  (∀ (s : State) (d : Nat) (w : Word), 16 ≤ d →
    ∃ f, exec (.ldiD d w) s = .next { s with response := some ⟨1, 0, 0⟩, failures := f })

/-- R131: CPY.S. -/
def Obligations.CpySingleCopiesOneSlot : Prop :=
  (∀ c : Command, c.hdr &&& 0xFF000000#32 = 0x98000000#32 →
    decode c = .ok (.cpyS (vdField c.hdr) (vmField c.hdr))) ∧
  (∀ (s : State) (dest src : Fin 32),
    exec (.cpyS dest src) s =
      .next { s with
        vfp := { s.vfp with slots := s.vfp.slots.set dest s.vfp.slots[src] },
        response := some ⟨0, 0, 0⟩ }) ∧
  (∀ (s : State) (dest src : Nat), 32 ≤ dest ∨ 32 ≤ src →
    ∃ f, exec (.cpyS dest src) s = .next { s with response := some ⟨1, 0, 0⟩, failures := f }) ∧
  (∀ (s : State) (r : Fin 32), exec (.cpyS r r) s = .next { s with response := some ⟨0, 0, 0⟩ })

/-- R132: CPY.D. -/
def Obligations.CpyDoubleCopiesBothSlots : Prop :=
  (∀ c : Command, c.hdr &&& 0xFF000000#32 = 0x90000000#32 →
    decode c = .ok (.cpyD (vdField c.hdr) (vmField c.hdr))) ∧
  (∀ (s : State) (dest src : Fin 16),
    exec (.cpyD dest src) s =
      .next { s with
        vfp := { s.vfp with
          slots := (s.vfp.slots.set (2 * dest.val) s.vfp.slots[2 * src.val]).set (2 * dest.val + 1)
            s.vfp.slots[2 * src.val + 1] },
        response := some ⟨0, 0, 0⟩ }) ∧
  (∀ (s : State) (dest src : Nat), 16 ≤ dest ∨ 16 ≤ src →
    ∃ f, exec (.cpyD dest src) s = .next { s with response := some ⟨1, 0, 0⟩, failures := f }) ∧
  (∀ (s : State) (d : Fin 16), exec (.cpyD d d) s = .next { s with response := some ⟨0, 0, 0⟩ })

/-- R121: one core register named twice. -/
def Obligations.EqualCoreRegistersInADoubleExchange : Prop :=
  ∀ (s : State) (d r : Fin 16),
    (exec (.movdpV d r r) s =
      .next { s with
        vfp := { s.vfp with slots := (s.vfp.slots.set (2 * d.val) s.x[r]).set (2 * d.val + 1) s.x[r] },
        response := some ⟨0, 0, 0⟩ } ∧
      exec (.movdsV d r r) s = exec (.movdpV d r r) s) ∧
    (∃ t, exec (.movdpC d r r) s = .next t ∧
      (t.x[r] = s.vfp.slots[2 * d.val] ∨ t.x[r] = s.vfp.slots[2 * d.val + 1]) ∧
      t.vfp = s.vfp ∧ ∀ j : Fin 16, j ≠ r → t.x[j] = s.x[j]) ∧
    (∃ t, exec (.movdsC d r r) s = .next t ∧
      (t.x[r] = s.vfp.slots[2 * d.val] ∨ t.x[r] = s.vfp.slots[2 * d.val + 1]) ∧
      t.vfp = s.vfp ∧ ∀ j : Fin 16, j ≠ r → t.x[j] = s.x[j])

/-- R133: the paired and the split form move the same words and keep their own encodings. -/
def Obligations.PairedAndSplitFormsAgree : Prop :=
  (∀ (s : State) (v : Nat) (a b : Fin 16), exec (.movdpV v a b) s = exec (.movdsV v a b) s) ∧
  (∀ (s : State) (v : Nat) (a b : Fin 16), a ≠ b → exec (.movdpC v a b) s = exec (.movdsC v a b) s) ∧
  (∀ (s t u : State) (v : Nat) (a : Fin 16), exec (.movdpC v a a) s = .next t → exec (.movdsC v a a) s = .next u →
    t.vfp = u.vfp ∧ t.response = u.response ∧ t.failures = u.failures ∧
      ∀ j : Fin 16, j ≠ a → t.x[j] = u.x[j]) ∧
  (∀ (v : Nat) (a b : Fin 16), (encode (.movdpC v a b)).hdr ≠ (encode (.movdsC v a b)).hdr ∧
    (encode (.movdpV v a b)).hdr ≠ (encode (.movdsV v a b)).hdr)

/-! ExceptionAggregator (42_exception_aggregator.md). -/

/-- R161: RAISE, with its fatal path (R162). -/
def Obligations.RaiseCommitsTheAggregation : Prop :=
  (∀ c : Command, c.hdr &&& 0xFF000000#32 = 0xA0000000#32 → decode c = .ok (.raise c.d0 c.d1 c.d2)) ∧
  (∀ (s : State) (iw c : Word),
    ∃ f, exec (.raise s.params.errorSentinel iw c) s =
      .next { s with response := some ⟨2, iw, 0⟩, failures := f }) ∧
  (∀ (s : State) (e iw c : Word), e ≠ s.params.errorSentinel → e &&& s.params.condMask ≠ 0 →
    exec (.raise e iw c) s =
      .next { s with
        vfp := { s.vfp with fpscr := (c &&& ~~~s.params.condMask) ||| e },
        response := some ⟨0, (c &&& ~~~s.params.condMask) ||| e, 0⟩ }) ∧
  (∀ (s : State) (e iw c : Word), e ≠ s.params.errorSentinel → e &&& s.params.condMask = 0 →
    exec (.raise e iw c) s =
      .next { s with vfp := { s.vfp with fpscr := c ||| e }, response := some ⟨0, c ||| e, 0⟩ })

/-- R163: condition flags replace. -/
def Obligations.ConditionFlagsReplace : Prop :=
  ∀ (s t : State) (e iw c : Word), e ≠ s.params.errorSentinel → exec (.raise e iw c) s = .next t →
    (e &&& s.params.condMask ≠ 0 → t.vfp.fpscr &&& s.params.condMask = e &&& s.params.condMask) ∧
    (e &&& s.params.condMask = 0 → t.vfp.fpscr &&& s.params.condMask = c &&& s.params.condMask) ∧
    (t.vfp.fpscr &&& s.params.condMask = 0 →
      e &&& s.params.condMask = 0 ∧ c &&& s.params.condMask = 0)

/-- R25: each of the four flags, for parameters that R7 allows: a bitmask with any condition flag sets exactly the
flags it carries; one without any keeps those of the snapshot; a status move takes those of its value. -/
def Obligations.EachConditionFlagFollowsTheBitmask : Prop :=
  ∀ (s t : State) (e iw c v : Word), s.params.legal = true → e ≠ s.params.errorSentinel →
    (exec (.raise e iw c) s = .next t →
      (hasCondition s.params e = true →
        nSet s.params t.vfp.fpscr = nSet s.params e ∧ zSet s.params t.vfp.fpscr = zSet s.params e ∧
        cSet s.params t.vfp.fpscr = cSet s.params e ∧ vSet s.params t.vfp.fpscr = vSet s.params e) ∧
      (hasCondition s.params e = false →
        nSet s.params t.vfp.fpscr = nSet s.params c ∧ zSet s.params t.vfp.fpscr = zSet s.params c ∧
        cSet s.params t.vfp.fpscr = cSet s.params c ∧ vSet s.params t.vfp.fpscr = vSet s.params c)) ∧
    (exec (.msr 1 v) s = .next t →
      nSet s.params t.vfp.fpscr = nSet s.params v ∧ zSet s.params t.vfp.fpscr = zSet s.params v ∧
      cSet s.params t.vfp.fpscr = cSet s.params v ∧ vSet s.params t.vfp.fpscr = vSet s.params v)

/-- R164: every bit outside the mask accumulates. -/
def Obligations.StickyBitsAccumulate : Prop :=
  ∀ (s t : State) (e iw c : Word) (b : Nat), e ≠ s.params.errorSentinel → exec (.raise e iw c) s = .next t →
    s.params.condMask.getLsbD b = false →
      t.vfp.fpscr.getLsbD b = (c.getLsbD b || e.getLsbD b) ∧
      (c.getLsbD b = true → t.vfp.fpscr.getLsbD b = true)

/-- R162: the fatal path is equality with the sentinel, tested first, and writes nothing. -/
def Obligations.OnlyTheSentinelIsFatal : Prop :=
  (∀ (s : State) (iw c : Word),
    ∃ f, exec (.raise s.params.errorSentinel iw c) s =
      .next { s with response := some ⟨2, iw, 0⟩, failures := f }) ∧
  (∀ (s : State) (e iw c : Word), e ≠ s.params.errorSentinel →
    ∃ t, exec (.raise e iw c) s = .next t ∧ t.response = some ⟨0, t.vfp.fpscr, 0⟩ ∧
      t.vfp.fpscr = (if e &&& s.params.condMask ≠ 0 then c &&& ~~~s.params.condMask else c) ||| e) ∧
  (∀ (i : Instr) (s t : State) (r : Response), exec i s = .next t → t.response = some r → r.status = 2 →
    ∃ iw c, i = .raise s.params.errorSentinel iw c)

/-- R165: the snapshot is an operand and the stored FPSCR is not read. -/
def Obligations.RaiseStartsFromTheSnapshot : Prop :=
  (∀ (s : State) (e iw c f : Word), e ≠ s.params.errorSentinel →
    exec (.raise e iw c) { s with vfp := { s.vfp with fpscr := f } } = exec (.raise e iw c) s) ∧
  (∀ (s t : State) (e iw : Word), e ≠ s.params.errorSentinel → e &&& s.params.condMask = 0 →
    exec (.raise e iw s.vfp.fpscr) s = .next t → t.vfp.fpscr = s.vfp.fpscr ||| e) ∧
  (∀ (s t : State) (e iw c : Word) (b : Nat), e ≠ s.params.errorSentinel → exec (.raise e iw c) s = .next t →
    s.vfp.fpscr.getLsbD b = true → c.getLsbD b = false → e.getLsbD b = false → t.vfp.fpscr.getLsbD b = false)

/-- R166: the whole table of laws of RAISE. -/
def Obligations.RaiseLaws : Prop :=
  (∀ (s t : State) (e iw c : Word), e ≠ s.params.errorSentinel → exec (.raise e iw c) s = .next t →
    -- empty bitmask
    (e = 0 → t.vfp.fpscr = c) ∧
    -- lower bound
    t.vfp.fpscr &&& e = e ∧
    -- sticky monotone
    (t.vfp.fpscr &&& ~~~s.params.condMask) &&& (c &&& ~~~s.params.condMask) = c &&& ~~~s.params.condMask ∧
    -- idempotent
    (∀ (u v : State) (iw' : Word), u.params = s.params → exec (.raise e iw' t.vfp.fpscr) u = .next v →
      v.vfp.fpscr = t.vfp.fpscr) ∧
    -- replace, keep
    (e &&& s.params.condMask ≠ 0 → t.vfp.fpscr &&& s.params.condMask = e &&& s.params.condMask) ∧
    (e &&& s.params.condMask = 0 → t.vfp.fpscr &&& s.params.condMask = c &&& s.params.condMask) ∧
    -- instruction word inert
    (∀ iw' : Word, exec (.raise e iw' c) s = .next t)) ∧
  -- frame, on both paths
  (∀ (s t : State) (e iw c : Word), exec (.raise e iw c) s = .next t →
    t.vfp.fpexc = s.vfp.fpexc ∧ t.vfp.fpsid = s.vfp.fpsid ∧ t.vfp.slots = s.vfp.slots ∧ t.x = s.x ∧
    -- fatal frame
    (e = s.params.errorSentinel → t.vfp.fpscr = s.vfp.fpscr))

/-! Failures (60_exceptions.md). -/

/-- R180: every operation has one outcome; one that ends with a failure has changed nothing and has read no core
register, and so has a command, a reserved header among them. -/
def Obligations.FailureChangesNothing : Prop :=
  (∀ (i : Instr) (s : State), ∃ t r, exec i s = .next t ∧ t.response = some r ∧
    (r.status = 0 ∨ r.status = 1 ∨ r.status = 2)) ∧
  (∀ (i : Instr) (s t : State) (r : Response),
    exec i s = .next t → t.response = some r → r.status ≠ 0 →
      t.vfp = s.vfp ∧ t.x = s.x ∧ t.draws = s.draws ∧ t.params = s.params ∧ t.inputs = s.inputs ∧
      t.position = s.position ∧
      ∀ y : Vector Word 16, exec i { s with x := y } = .next { t with x := y }) ∧
  (∀ (s t : State) (c : Command) (rest : List Input) (r : Response),
    s.inputs = .command c :: rest → step s = .next t → t.response = some r → r.status ≠ 0 →
      t.vfp = s.vfp ∧ t.x = s.x ∧ ∀ y : Vector Word 16, step { s with x := y } = .next { t with x := y })

/-- R181: the index failure, exactly on the operands of the table, recording no value. -/
def Obligations.IndexFailureExactlyOutOfRange : Prop :=
  (∀ (i : Instr) (s : State), badIndex i = true →
    ∃ f, exec i s = .next { s with response := some ⟨1, 0, 0⟩, failures := f }) ∧
  (∀ (i : Instr) (s : State), badIndex i = false →
    ∃ t r, exec i s = .next t ∧ t.response = some r ∧ r.status ≠ 1) ∧
  (∀ (sel : Nat) (v e iw c : Word), badIndex (.msr sel v) = false ∧ badIndex (.raise e iw c) = false)

/-- R81 and R183: the reserved headers, and their outcome. -/
def Obligations.ReservedHeadersAreRejected : Prop :=
  (∀ c : Command, (∃ e, decode c = .error e) ↔
    (0xB ≤ (c.hdr.extractLsb' 28 4).toNat ∨ c.hdr.extractLsb' 24 3 ≠ 0#3 ∨
      (c.hdr.getLsbD 27 = true ∧ (c.hdr.extractLsb' 28 4).toNat ∈ [0x0, 0x1, 0x2, 0x3, 0x4, 0xA]))) ∧
  (∀ (s : State) (c : Command) (rest : List Input) (e : Reject),
    s.inputs = .command c :: rest → decode c = .error e →
    ∃ f, step s =
      .next { s with
        inputs := rest, position := s.position + 1, response := some ⟨3, 0, 0⟩, failures := f })

/-- R185: every operation ends with a next state and one of the outcomes its row allows; the environment's record grows
by the failure given, which is the model's choice (log entry 2). -/
def Obligations.EveryOperationHasOneOutcome : Prop :=
  (∀ (i : Instr) (s : State), ∃ t r, exec i s = .next t ∧ t.response = some r ∧
    ((r.status = 0 ∧ t.failures = s.failures) ∨
      (r.status = 1 ∧ t.failures = s.failures ++ [.invalidRegisterIndex] ∧
        (∀ sel v, i ≠ .msr sel v) ∧ ∀ e iw c, i ≠ .raise e iw c) ∨
      (r.status = 2 ∧ ∃ e iw c, i = .raise e iw c ∧ t.failures = s.failures ++ [.fatalFloatingPointFault iw]))) ∧
  (∀ (s : State) (c : Command) (rest : List Input) (e : Reject), s.inputs = .command c :: rest →
    decode c = .error e → ∃ t, step s = .next t ∧ t.failures = s.failures ++ [.invalidCommand])

/-- R74: the response of every command. -/
def Obligations.EveryCommandGivesOneResponse : Prop :=
  ∀ (s : State) (c : Command) (rest : List Input), s.inputs = .command c :: rest →
    ∃ t r, step s = .next t ∧ t.response = some r ∧
      match decode c with
      | .error _ => r = ⟨3, 0, 0⟩
      | .ok i =>
        if badIndex i = true then r = ⟨1, 0, 0⟩
        else
          match i with
          | .rds reg => ∃ _ : reg < 32, r = ⟨0, s.vfp.slots[reg], 0⟩
          | .rdd reg => ∃ _ : reg < 16, r = ⟨0, s.vfp.slots[2 * reg], s.vfp.slots[2 * reg + 1]⟩
          | .raise e iw _ =>
            if e = s.params.errorSentinel then r = ⟨2, iw, 0⟩ else r = ⟨0, t.vfp.fpscr, 0⟩
          | _ => r = ⟨0, 0, 0⟩

/-- R191, R189: after a failed command, every later command does what it would have done had the failed command
never been presented: the block, the core registers and the draws of the two runs agree. -/
def Obligations.FailedCommandIsInvisibleToLaterOnes : Prop :=
  ∀ (s t : State) (c : Command) (rest : List Input) (r : Response),
    s.inputs = .command c :: rest → step s = .next t → t.response = some r → r.status ≠ 0 →
    ∀ (n : Nat) (u : State), runSteps n t = .next u →
      ∃ v, runSteps n { s with inputs := rest } = .next v ∧
        v.vfp = u.vfp ∧ v.x = u.x ∧ v.draws = u.draws ∧ v.inputs = u.inputs

/-- R197: FPEXC and FPSCR gate nothing: over any number of steps, two states that differ only in them give runs that
differ only in them. -/
def Obligations.FpexcAndFpscrGateNothing : Prop :=
  ∀ (n : Nat) (s t : State) (e f : Word), runSteps n s = .next t →
    ∃ u, runSteps n { s with vfp := { s.vfp with fpexc := e, fpscr := f } } = .next u ∧
      u.vfp.slots = t.vfp.slots ∧ u.vfp.fpsid = t.vfp.fpsid ∧ u.x = t.x ∧ u.inputs = t.inputs ∧
      u.position = t.position ∧ u.response = t.response ∧ u.failures = t.failures ∧ u.draws = t.draws ∧
      u.params = t.params

/-! State and storage (10_state.md, 20_memory.md). -/

/-- R21: FPSID is never mutated and no operation reads it. -/
def Obligations.FpsidIsNeverMutated : Prop :=
  State.reset.vfp.fpsid = fpsidValue State.reset.params ∧
  (∀ (s t : State), s.vfp.fpsid = fpsidValue s.params → step s = .next t →
    t.vfp.fpsid = fpsidValue s.params ∧ t.params = s.params) ∧
  (∀ (i : Instr) (s t : State) (w : Word), exec i s = .next t →
    t.vfp.fpsid = s.vfp.fpsid ∧
    exec i { s with vfp := { s.vfp with fpsid := w } } = .next { t with vfp := { t.vfp with fpsid := w } })

/-- R22: the layout of FPSID, and the rule's worked example. -/
def Obligations.FpsidLayout : Prop :=
  ∀ p : Params,
    (fpsidValue p).extractLsb' 24 8 = p.implementer ∧ (fpsidValue p).extractLsb' 23 1 = p.sw ∧
    (fpsidValue p).extractLsb' 16 7 = p.subarch ∧ (fpsidValue p).extractLsb' 8 8 = p.partnum ∧
    (fpsidValue p).extractLsb' 4 4 = p.variant ∧ (fpsidValue p).extractLsb' 0 4 = p.revision ∧
    (p.implementer = 0x00 → p.sw = 0 → p.subarch = 0x02 → p.partnum = 0x01 → p.variant = 0x1 →
      p.revision = 0x1 → fpsidValue p = 0x00020111)

/-- R33, the column "written by": who writes what. -/
def Obligations.WhoWritesWhat : Prop :=
  ∀ (i : Instr) (s t : State), exec i s = .next t →
    t.vfp.fpsid = s.vfp.fpsid ∧
    (t.vfp.fpexc ≠ s.vfp.fpexc → ∃ v, i = .msr 8 v) ∧
    (t.vfp.fpscr ≠ s.vfp.fpscr → (∃ v, i = .msr 1 v) ∨ ∃ e iw c, i = .raise e iw c) ∧
    (t.vfp.slots ≠ s.vfp.slots → writesSlots i = true) ∧
    (t.x ≠ s.x → writesCore i = true) ∧
    t.params = s.params ∧ t.inputs = s.inputs ∧ t.position = s.position

/-- R85: only the six exchanges use the core-register port, and only the to-core ones write. -/
def Obligations.CorePortIsUsedByExchangesOnly : Prop :=
  ∀ (i : Instr) (s t : State), exec i s = .next t →
    (writesCore i = false → t.x = s.x) ∧
    (usesCorePort i = false → ∀ y : Vector Word 16, exec i { s with x := y } = .next { t with x := y }) ∧
    (badIndex i = true → t.x = s.x ∧ ∀ y : Vector Word 16, exec i { s with x := y } = .next { t with x := y })

/-- R58: repeating a command changes nothing more, but for the one command that draws; that one draws afresh. -/
def Obligations.RepeatingACommandChangesNothingMore : Prop :=
  ∀ (i : Instr) (s t u : State), exec i s = .next t → exec i t = .next u →
    u.vfp = t.vfp ∧
    (drawsAValue i = false → u.x = t.x ∧ u.draws = t.draws) ∧
    (drawsAValue i = true → badIndex i = false → u.draws = t.draws + 1)

/-- R39, R210, R211: the reset event and the reset values, whatever the state before; the core registers are
left alone. That the response, the position and the record of failures survive a reset is the model's choice (log entries
10 and 11), and that a reset is an input of the list is log entries 1 and 12. -/
def Obligations.ResetGivesTheResetValues : Prop :=
  (∀ (s : State) (rest : List Input), s.inputs = .reset :: rest →
    step s = .next { s with vfp := ⟨fpsidValue s.params, 0, 0, Vector.replicate 32 0⟩, inputs := rest }) ∧
  (∀ (s s' t t' : State) (rest rest' : List Input), s.params = s'.params →
    s.inputs = .reset :: rest → s'.inputs = .reset :: rest' → step s = .next t → step s' = .next t' →
    t.vfp = t'.vfp) ∧
  State.reset.vfp = ⟨fpsidValue State.reset.params, 0, 0, Vector.replicate 32 0⟩

/-! Commands and steps (30_encoding.md, 20_memory.md). -/

/-- R60 and R186: a step runs the decoded operation with the input taken off and the position grown by one. Model's
choice: how the inputs are held (log entry 1), and the refusal once none is left, where R212 says that the block waits (log
entry 4). -/
def Obligations.StepRunsTheDecodedCommand : Prop :=
  (∀ (s : State) (c : Command) (rest : List Input) (i : Instr),
    s.inputs = .command c :: rest → decode c = .ok i →
    step s = exec i { s with inputs := rest, position := s.position + 1 }) ∧
  (∀ s : State, s.inputs = [] → step s = .refused .noCommand)

/-- Model's choice (log entries 1 and 18): a word placed by withFetchWord is what the next step runs. -/
def Obligations.PlacedWordRunsNext : Prop :=
  ∀ (s : State) (nbits w : Nat) (i : Instr), decodeTableWord nbits w = some i →
    step (s.withFetchWord nbits w) = exec i { s with position := s.position + 1 }

/-- R79: match and mask. -/
def Obligations.HeaderSelectsTheRowItMatches : Prop :=
  (∀ c : Command, (∃ i, decode c = .ok i) ↔ c.hdr &&& 0xFF000000#32 ∈
    [0x00000000#32, 0x10000000#32, 0x20000000#32, 0x30000000#32, 0x40000000#32, 0x50000000#32, 0x58000000#32,
      0x60000000#32, 0x68000000#32, 0x70000000#32, 0x78000000#32, 0x80000000#32, 0x88000000#32, 0x90000000#32,
      0x98000000#32, 0xA0000000#32]) ∧
  (∀ (c : Command) (i : Instr), decode c = .ok i → c.hdr &&& 0xFF000000#32 = matchOf i) ∧
  [0x00000000#32, 0x10000000#32, 0x20000000#32, 0x30000000#32, 0x40000000#32, 0x50000000#32, 0x58000000#32,
    0x60000000#32, 0x68000000#32, 0x70000000#32, 0x78000000#32, 0x80000000#32, 0x88000000#32, 0x90000000#32,
    0x98000000#32, 0xA0000000#32].Nodup

/-- R80: assembling a header, with the rule's two worked examples. -/
def Obligations.HeaderIsAssembledByShifts : Prop :=
  (∀ (op : BitVec 4) (f : Bool) (vm vd : Nat) (t2 t : Fin 16), vm < 256 → vd < 256 →
    packHeader op f vm vd t2 t =
      (op.setWidth 32 <<< 28) ||| ((BitVec.ofBool f).setWidth 32 <<< 27) ||| (BitVec.ofNat 32 vm <<< 16) |||
        (BitVec.ofNat 32 vd <<< 8) ||| (BitVec.ofNat 32 t2.val <<< 4) ||| BitVec.ofNat 32 t.val) ∧
  (encode (.movdpC 5 2 3)).hdr = 0x68000532 ∧ (encode (.cpyS 31 0)).hdr = 0x98001F00

/-- R73: encoding what was decoded gives the command back with every unused field and data word zero, and what stands
in an unused field or data word has no effect. -/
def Obligations.UnusedFieldsAreIgnored : Prop :=
  (∀ (c : Command) (i : Instr), decode c = .ok i →
    encode i = ⟨c.hdr &&& usedHeader i, if usesD0 i then c.d0 else 0, if usesD1 i then c.d1 else 0,
      if usesD2 i then c.d2 else 0⟩) ∧
  (∀ (c c' : Command) (i : Instr), decode c = .ok i → c'.hdr &&& usedHeader i = c.hdr &&& usedHeader i →
    (usesD0 i = true → c'.d0 = c.d0) → (usesD1 i = true → c'.d1 = c.d1) → (usesD2 i = true → c'.d2 = c.d2) →
    decode c' = .ok i)

/-- Every well-formed operation is read back from its command. -/
def Obligations.DecodeOfEncode : Prop := ∀ i : Instr, i.wf = true → decode (encode i) = .ok i

/-- What the decoder reads is well-formed. -/
def Obligations.DecodedOperationsAreWellFormed : Prop :=
  ∀ (c : Command) (i : Instr), decode c = .ok i → i.wf = true

/-- Headers written out bit by bit from the spec's encoding (R71, R79) decode to what they stand for. Model's choice
(log entry 18): where D0 stands in a table word, in the conjunct about MSR. -/
def Obligations.HeadersWrittenOutDecode : Prop :=
  decodeTableWord 32 0b00000000000000000000011000000000 = some (.rds 6) ∧
  decodeTableWord 32 0b00100000000000000000001100000000 = some (.rdd 3) ∧
  decodeTableWord 64 (0x60000001 * 2 ^ 32 + 0b01000000000000000000000100000000) = some (.msr 1 0x60000001) ∧
  decodeTableWord 32 0b01011000000000000000001100000100 = some (.movsC 3 4) ∧
  decodeTableWord 32 0b01101000000000000000010100110010 = some (.movdpC 5 2 3) ∧
  decodeTableWord 32 0b01110000000000000000111101110110 = some (.movdsV 15 6 7) ∧
  decodeTableWord 32 0b10010000000000010000000000000000 = some (.cpyD 0 1) ∧
  decodeTableWord 32 0b10110000000000000000000000000000 = none

/-! Whole runs. -/

/-- R18, R38, R191: the machine takes every input, never stopping before the list is exhausted, and the position grows
by one per command whatever the outcomes. Model's choice: how the
inputs are held (log entry 1) and the refusal once none is left (log entry 4). -/
def Obligations.RunTakesEveryInput : Prop :=
  ∀ s : State, ∃ t, runSteps s.inputs.length s = .next t ∧ t.inputs = [] ∧
    t.position = s.position + commandCount s.inputs ∧ step t = .refused .noCommand

/-- R60: the run of a list of inputs is the left-to-right composition of its steps, and no command sees a later one. -/
def Obligations.RunIsLeftToRightComposition : Prop :=
  ∀ (s : State) (first later : List Input), ∃ m : State,
    runSteps first.length { s with inputs := first } = .next { m with inputs := [] } ∧
    runSteps first.length { s with inputs := first ++ later } = .next { m with inputs := later } ∧
    ∀ n, runSteps (first.length + n) { s with inputs := first ++ later } = runSteps n { m with inputs := later }

/-- The invariant (Safety.lean) is kept by every step. -/
def Obligations.StepKeepsTheInvariant : Prop := ∀ s t : State, s.Inv → step s = .next t → t.Inv

/-- The invariant holds at reset. -/
def Obligations.ResetMeetsTheInvariant : Prop := State.reset.Inv
end

