-- ==== Sys2Proof/Laws/Bits.lean ====
section
/-! SUPPORT. Words as natural numbers: a concatenation and a masked word, the two facts the header and the double
registers need. -/

namespace Sys2Proof

/-- A concatenation as a number. -/
theorem append_toNat {m n : Nat} (a : BitVec m) (b : BitVec n) :
    (a ++ b).toNat = a.toNat * 2 ^ n + b.toNat := by
  rw [BitVec.toNat_append, ← Nat.shiftLeft_add_eq_or_of_lt b.isLt, Nat.shiftLeft_eq]

/-- A double value as a number: its high word above its low word. -/
theorem dword_toNat (hi lo : Word) : BitVec.toNat (hi ++ lo : DWord) = hi.toNat * 2 ^ 32 + lo.toNat :=
  append_toNat hi lo

/-- The common mask of the operation table keeps the top byte (R79). -/
theorem mask_toNat (w : Word) : (w &&& 0xFF000000#32).toNat = w.toNat / 2 ^ 24 * 2 ^ 24 := by
  have e : w &&& 0xFF000000#32 = w >>> 24 <<< 24 := by
    apply BitVec.eq_of_getElem_eq
    intro i hi
    interval_cases i <;> simp
  have := w.isLt
  rw [e, BitVec.toNat_shiftLeft, BitVec.toNat_ushiftRight, Nat.shiftLeft_eq, Nat.shiftRight_eq_div_pow]
  omega

end Sys2Proof
end

