-- ==== Sys2Proof/Laws/Decode.lean ====
section
/-! SUPPORT. The header's fields: read back from a packed header, and fixed by a row's match under the common
mask (30_encoding.md R71, R79). -/

namespace Sys2Proof

/-- A header, field by field, as a natural number (R80). -/
theorem packHeader_toNat (op : BitVec 4) (f : Bool) (vm vd : Nat) (t2 t : Fin 16) :
    (packHeader op f vm vd t2 t).toNat =
      op.toNat * 2 ^ 28 + f.toNat * 2 ^ 27 + vm % 256 * 2 ^ 16 + vd % 256 * 2 ^ 8 + t2.val * 2 ^ 4 + t.val := by
  have h2 := t2.isLt
  have h1 := t.isLt
  simp only [packHeader, append_toNat, BitVec.toNat_ofNat, BitVec.toNat_ofBool]
  omega

section Fields

variable (op : BitVec 4) (f : Bool) (vm vd : Nat) (t2 t : Fin 16)

@[simp] theorem opField_packHeader : opField (packHeader op f vm vd t2 t) = op.toNat := by
  have := op.isLt
  have := f.toNat_lt
  simp only [opField, BitVec.extractLsb'_toNat, packHeader_toNat, Nat.shiftRight_eq_div_pow]
  omega

@[simp] theorem rsvField_packHeader : rsvField (packHeader op f vm vd t2 t) = 0 := by
  have := f.toNat_lt
  simp only [rsvField, BitVec.extractLsb'_toNat, packHeader_toNat, Nat.shiftRight_eq_div_pow]
  omega

@[simp] theorem vmField_packHeader : vmField (packHeader op f vm vd t2 t) = vm % 256 := by
  simp only [vmField, BitVec.extractLsb'_toNat, packHeader_toNat, Nat.shiftRight_eq_div_pow]
  omega

@[simp] theorem vdField_packHeader : vdField (packHeader op f vm vd t2 t) = vd % 256 := by
  simp only [vdField, BitVec.extractLsb'_toNat, packHeader_toNat, Nat.shiftRight_eq_div_pow]
  omega

@[simp] theorem t2Field_packHeader : t2Field (packHeader op f vm vd t2 t) = t2 := by
  apply Fin.ext
  simp only [t2Field, BitVec.extractLsb'_toNat, packHeader_toNat, Nat.shiftRight_eq_div_pow]
  omega

@[simp] theorem tField_packHeader : tField (packHeader op f vm vd t2 t) = t := by
  apply Fin.ext
  simp only [tField, BitVec.extractLsb'_toNat, packHeader_toNat, Nat.shiftRight_eq_div_pow]
  omega

@[simp] theorem fField_packHeader : fField (packHeader op f vm vd t2 t) = f := by
  rw [fField, ← BitVec.testBit_toNat, packHeader_toNat, Nat.testBit_eq_decide_div_mod_eq]
  cases f
  all_goals simp only [Bool.toNat_false, Bool.toNat_true, decide_eq_false_iff_not, decide_eq_true_eq]
  all_goals omega

end Fields

/-- A row's match fixes the operation code, the variant flag and the reserved bits (R79). -/
theorem fields_of_match {h m : Word} (hm : h &&& 0xFF000000#32 = m) :
    opField h = opField m ∧ fField h = fField m ∧ rsvField h = rsvField m := by
  subst hm
  refine ⟨?_, ?_, ?_⟩
  · rw [opField, opField, BitVec.extractLsb'_and]
    congr 1
    exact (BitVec.and_allOnes (x := h.extractLsb' 28 4)).symm
  · simp [fField]
  · rw [rsvField, rsvField, BitVec.extractLsb'_and]
    congr 1
    exact (BitVec.and_allOnes (x := h.extractLsb' 24 3)).symm

/-- The masked header, field by field (R79). -/
theorem mask_toNat_fields (h : Word) : (h &&& 0xFF000000#32).toNat =
    opField h * 2 ^ 28 + (fField h).toNat * 2 ^ 27 + rsvField h * 2 ^ 24 := by
  have hw := h.isLt
  have hf : (fField h).toNat = h.toNat / 2 ^ 27 % 2 := by
    rw [fField, ← BitVec.testBit_toNat, Nat.testBit_eq_decide_div_mod_eq]
    rcases Nat.mod_two_eq_zero_or_one (h.toNat / 2 ^ 27) with e | e <;> rw [e] <;> rfl
  rw [mask_toNat, hf, opField, rsvField]
  simp only [BitVec.extractLsb'_toNat, Nat.shiftRight_eq_div_pow]
  omega

/-- The operation code, the variant flag and the reserved bits fix the match (R79). -/
theorem match_of_fields {h m : Word} (hm : m &&& 0xFF000000#32 = m) (ho : opField h = opField m)
    (hf : fField h = fField m) (hr : rsvField h = rsvField m) : h &&& 0xFF000000#32 = m := by
  rw [← hm]
  apply BitVec.eq_of_toNat_eq
  rw [mask_toNat_fields, mask_toNat_fields, ho, hf, hr]

end Sys2Proof
end

