-- ==== Sys2Proof/Laws/State.lean ====
section
/-! SUPPORT. One lemma per field of the state per named update, so that no proof unfolds a record update. -/

namespace Sys2Proof.Machine

variable (s : State)

/-! writeSlot -/

@[simp] theorem writeSlot_vfp_fpsid (i : Fin 32) (w : Word) : (writeSlot i w s).vfp.fpsid = s.vfp.fpsid := rfl
@[simp] theorem writeSlot_vfp_fpexc (i : Fin 32) (w : Word) : (writeSlot i w s).vfp.fpexc = s.vfp.fpexc := rfl
@[simp] theorem writeSlot_vfp_fpscr (i : Fin 32) (w : Word) : (writeSlot i w s).vfp.fpscr = s.vfp.fpscr := rfl
@[simp] theorem writeSlot_vfp_slots (i : Fin 32) (w : Word) :
    (writeSlot i w s).vfp.slots = s.vfp.slots.set i w := rfl
@[simp] theorem writeSlot_x (i : Fin 32) (w : Word) : (writeSlot i w s).x = s.x := rfl
@[simp] theorem writeSlot_params (i : Fin 32) (w : Word) : (writeSlot i w s).params = s.params := rfl
@[simp] theorem writeSlot_inputs (i : Fin 32) (w : Word) : (writeSlot i w s).inputs = s.inputs := rfl
@[simp] theorem writeSlot_position (i : Fin 32) (w : Word) : (writeSlot i w s).position = s.position := rfl
@[simp] theorem writeSlot_response (i : Fin 32) (w : Word) : (writeSlot i w s).response = s.response := rfl
@[simp] theorem writeSlot_failures (i : Fin 32) (w : Word) : (writeSlot i w s).failures = s.failures := rfl
@[simp] theorem writeSlot_draws (i : Fin 32) (w : Word) : (writeSlot i w s).draws = s.draws := rfl

/-! writeFpscr -/

@[simp] theorem writeFpscr_vfp_fpsid (w : Word) : (writeFpscr w s).vfp.fpsid = s.vfp.fpsid := rfl
@[simp] theorem writeFpscr_vfp_fpexc (w : Word) : (writeFpscr w s).vfp.fpexc = s.vfp.fpexc := rfl
@[simp] theorem writeFpscr_vfp_fpscr (w : Word) : (writeFpscr w s).vfp.fpscr = w := rfl
@[simp] theorem writeFpscr_vfp_slots (w : Word) : (writeFpscr w s).vfp.slots = s.vfp.slots := rfl
@[simp] theorem writeFpscr_x (w : Word) : (writeFpscr w s).x = s.x := rfl
@[simp] theorem writeFpscr_params (w : Word) : (writeFpscr w s).params = s.params := rfl
@[simp] theorem writeFpscr_inputs (w : Word) : (writeFpscr w s).inputs = s.inputs := rfl
@[simp] theorem writeFpscr_position (w : Word) : (writeFpscr w s).position = s.position := rfl
@[simp] theorem writeFpscr_response (w : Word) : (writeFpscr w s).response = s.response := rfl
@[simp] theorem writeFpscr_failures (w : Word) : (writeFpscr w s).failures = s.failures := rfl
@[simp] theorem writeFpscr_draws (w : Word) : (writeFpscr w s).draws = s.draws := rfl

/-! writeFpexc -/

@[simp] theorem writeFpexc_vfp_fpsid (w : Word) : (writeFpexc w s).vfp.fpsid = s.vfp.fpsid := rfl
@[simp] theorem writeFpexc_vfp_fpexc (w : Word) : (writeFpexc w s).vfp.fpexc = w := rfl
@[simp] theorem writeFpexc_vfp_fpscr (w : Word) : (writeFpexc w s).vfp.fpscr = s.vfp.fpscr := rfl
@[simp] theorem writeFpexc_vfp_slots (w : Word) : (writeFpexc w s).vfp.slots = s.vfp.slots := rfl
@[simp] theorem writeFpexc_x (w : Word) : (writeFpexc w s).x = s.x := rfl
@[simp] theorem writeFpexc_params (w : Word) : (writeFpexc w s).params = s.params := rfl
@[simp] theorem writeFpexc_inputs (w : Word) : (writeFpexc w s).inputs = s.inputs := rfl
@[simp] theorem writeFpexc_position (w : Word) : (writeFpexc w s).position = s.position := rfl
@[simp] theorem writeFpexc_response (w : Word) : (writeFpexc w s).response = s.response := rfl
@[simp] theorem writeFpexc_failures (w : Word) : (writeFpexc w s).failures = s.failures := rfl
@[simp] theorem writeFpexc_draws (w : Word) : (writeFpexc w s).draws = s.draws := rfl

/-! writeCore -/

@[simp] theorem writeCore_vfp_fpsid (i : Fin 16) (w : Word) : (writeCore i w s).vfp.fpsid = s.vfp.fpsid := rfl
@[simp] theorem writeCore_vfp_fpexc (i : Fin 16) (w : Word) : (writeCore i w s).vfp.fpexc = s.vfp.fpexc := rfl
@[simp] theorem writeCore_vfp_fpscr (i : Fin 16) (w : Word) : (writeCore i w s).vfp.fpscr = s.vfp.fpscr := rfl
@[simp] theorem writeCore_vfp_slots (i : Fin 16) (w : Word) : (writeCore i w s).vfp.slots = s.vfp.slots := rfl
@[simp] theorem writeCore_x (i : Fin 16) (w : Word) : (writeCore i w s).x = s.x.set i w := rfl
@[simp] theorem writeCore_params (i : Fin 16) (w : Word) : (writeCore i w s).params = s.params := rfl
@[simp] theorem writeCore_inputs (i : Fin 16) (w : Word) : (writeCore i w s).inputs = s.inputs := rfl
@[simp] theorem writeCore_position (i : Fin 16) (w : Word) : (writeCore i w s).position = s.position := rfl
@[simp] theorem writeCore_response (i : Fin 16) (w : Word) : (writeCore i w s).response = s.response := rfl
@[simp] theorem writeCore_failures (i : Fin 16) (w : Word) : (writeCore i w s).failures = s.failures := rfl
@[simp] theorem writeCore_draws (i : Fin 16) (w : Word) : (writeCore i w s).draws = s.draws := rfl

/-! writePair -/

@[simp] theorem writePair_vfp_fpsid (d : Fin 16) (lo hi : Word) :
    (writePair d lo hi s).vfp.fpsid = s.vfp.fpsid := rfl
@[simp] theorem writePair_vfp_fpexc (d : Fin 16) (lo hi : Word) :
    (writePair d lo hi s).vfp.fpexc = s.vfp.fpexc := rfl
@[simp] theorem writePair_vfp_fpscr (d : Fin 16) (lo hi : Word) :
    (writePair d lo hi s).vfp.fpscr = s.vfp.fpscr := rfl
@[simp] theorem writePair_vfp_slots (d : Fin 16) (lo hi : Word) :
    (writePair d lo hi s).vfp.slots = (s.vfp.slots.set (lowSlot d) lo).set (highSlot d) hi := rfl
@[simp] theorem writePair_x (d : Fin 16) (lo hi : Word) : (writePair d lo hi s).x = s.x := rfl
@[simp] theorem writePair_params (d : Fin 16) (lo hi : Word) : (writePair d lo hi s).params = s.params := rfl
@[simp] theorem writePair_inputs (d : Fin 16) (lo hi : Word) : (writePair d lo hi s).inputs = s.inputs := rfl
@[simp] theorem writePair_position (d : Fin 16) (lo hi : Word) :
    (writePair d lo hi s).position = s.position := rfl
@[simp] theorem writePair_response (d : Fin 16) (lo hi : Word) :
    (writePair d lo hi s).response = s.response := rfl
@[simp] theorem writePair_failures (d : Fin 16) (lo hi : Word) :
    (writePair d lo hi s).failures = s.failures := rfl
@[simp] theorem writePair_draws (d : Fin 16) (lo hi : Word) : (writePair d lo hi s).draws = s.draws := rfl

/-! writeDouble -/

@[simp] theorem writeDouble_vfp_fpsid (d : Fin 16) (v : DWord) :
    (writeDouble d v s).vfp.fpsid = s.vfp.fpsid := rfl
@[simp] theorem writeDouble_vfp_fpexc (d : Fin 16) (v : DWord) :
    (writeDouble d v s).vfp.fpexc = s.vfp.fpexc := rfl
@[simp] theorem writeDouble_vfp_fpscr (d : Fin 16) (v : DWord) :
    (writeDouble d v s).vfp.fpscr = s.vfp.fpscr := rfl
@[simp] theorem writeDouble_vfp_slots (d : Fin 16) (v : DWord) :
    (writeDouble d v s).vfp.slots = (s.vfp.slots.set (lowSlot d) (lowWord v)).set (highSlot d) (highWord v) := rfl
@[simp] theorem writeDouble_x (d : Fin 16) (v : DWord) : (writeDouble d v s).x = s.x := rfl
@[simp] theorem writeDouble_params (d : Fin 16) (v : DWord) : (writeDouble d v s).params = s.params := rfl
@[simp] theorem writeDouble_inputs (d : Fin 16) (v : DWord) : (writeDouble d v s).inputs = s.inputs := rfl
@[simp] theorem writeDouble_position (d : Fin 16) (v : DWord) : (writeDouble d v s).position = s.position := rfl
@[simp] theorem writeDouble_response (d : Fin 16) (v : DWord) : (writeDouble d v s).response = s.response := rfl
@[simp] theorem writeDouble_failures (d : Fin 16) (v : DWord) : (writeDouble d v s).failures = s.failures := rfl
@[simp] theorem writeDouble_draws (d : Fin 16) (v : DWord) : (writeDouble d v s).draws = s.draws := rfl

/-! resetBlock -/

@[simp] theorem resetBlock_vfp_fpsid : (resetBlock s).vfp.fpsid = fpsidValue s.params := rfl
@[simp] theorem resetBlock_vfp_fpexc : (resetBlock s).vfp.fpexc = 0 := rfl
@[simp] theorem resetBlock_vfp_fpscr : (resetBlock s).vfp.fpscr = 0 := rfl
@[simp] theorem resetBlock_vfp_slots : (resetBlock s).vfp.slots = Vector.replicate 32 0 := rfl
@[simp] theorem resetBlock_x : (resetBlock s).x = s.x := rfl
@[simp] theorem resetBlock_params : (resetBlock s).params = s.params := rfl
@[simp] theorem resetBlock_inputs : (resetBlock s).inputs = s.inputs := rfl
@[simp] theorem resetBlock_position : (resetBlock s).position = s.position := rfl
@[simp] theorem resetBlock_response : (resetBlock s).response = s.response := rfl
@[simp] theorem resetBlock_failures : (resetBlock s).failures = s.failures := rfl
@[simp] theorem resetBlock_draws : (resetBlock s).draws = s.draws := rfl

/-! takeReset -/

@[simp] theorem takeReset_vfp_fpsid (rest : List Input) : (takeReset rest s).vfp.fpsid = s.vfp.fpsid := rfl
@[simp] theorem takeReset_vfp_fpexc (rest : List Input) : (takeReset rest s).vfp.fpexc = s.vfp.fpexc := rfl
@[simp] theorem takeReset_vfp_fpscr (rest : List Input) : (takeReset rest s).vfp.fpscr = s.vfp.fpscr := rfl
@[simp] theorem takeReset_vfp_slots (rest : List Input) : (takeReset rest s).vfp.slots = s.vfp.slots := rfl
@[simp] theorem takeReset_x (rest : List Input) : (takeReset rest s).x = s.x := rfl
@[simp] theorem takeReset_params (rest : List Input) : (takeReset rest s).params = s.params := rfl
@[simp] theorem takeReset_inputs (rest : List Input) : (takeReset rest s).inputs = rest := rfl
@[simp] theorem takeReset_position (rest : List Input) : (takeReset rest s).position = s.position := rfl
@[simp] theorem takeReset_response (rest : List Input) : (takeReset rest s).response = s.response := rfl
@[simp] theorem takeReset_failures (rest : List Input) : (takeReset rest s).failures = s.failures := rfl
@[simp] theorem takeReset_draws (rest : List Input) : (takeReset rest s).draws = s.draws := rfl

/-! takeCommand -/

@[simp] theorem takeCommand_vfp_fpsid (rest : List Input) : (takeCommand rest s).vfp.fpsid = s.vfp.fpsid := rfl
@[simp] theorem takeCommand_vfp_fpexc (rest : List Input) : (takeCommand rest s).vfp.fpexc = s.vfp.fpexc := rfl
@[simp] theorem takeCommand_vfp_fpscr (rest : List Input) : (takeCommand rest s).vfp.fpscr = s.vfp.fpscr := rfl
@[simp] theorem takeCommand_vfp_slots (rest : List Input) : (takeCommand rest s).vfp.slots = s.vfp.slots := rfl
@[simp] theorem takeCommand_x (rest : List Input) : (takeCommand rest s).x = s.x := rfl
@[simp] theorem takeCommand_params (rest : List Input) : (takeCommand rest s).params = s.params := rfl
@[simp] theorem takeCommand_inputs (rest : List Input) : (takeCommand rest s).inputs = rest := rfl
@[simp] theorem takeCommand_position (rest : List Input) : (takeCommand rest s).position = s.position + 1 := rfl
@[simp] theorem takeCommand_response (rest : List Input) : (takeCommand rest s).response = s.response := rfl
@[simp] theorem takeCommand_failures (rest : List Input) : (takeCommand rest s).failures = s.failures := rfl
@[simp] theorem takeCommand_draws (rest : List Input) : (takeCommand rest s).draws = s.draws := rfl

/-! present -/

@[simp] theorem present_vfp_fpsid (c : Command) : (present c s).vfp.fpsid = s.vfp.fpsid := rfl
@[simp] theorem present_vfp_fpexc (c : Command) : (present c s).vfp.fpexc = s.vfp.fpexc := rfl
@[simp] theorem present_vfp_fpscr (c : Command) : (present c s).vfp.fpscr = s.vfp.fpscr := rfl
@[simp] theorem present_vfp_slots (c : Command) : (present c s).vfp.slots = s.vfp.slots := rfl
@[simp] theorem present_x (c : Command) : (present c s).x = s.x := rfl
@[simp] theorem present_params (c : Command) : (present c s).params = s.params := rfl
@[simp] theorem present_inputs (c : Command) : (present c s).inputs = .command c :: s.inputs := rfl
@[simp] theorem present_position (c : Command) : (present c s).position = s.position := rfl
@[simp] theorem present_response (c : Command) : (present c s).response = s.response := rfl
@[simp] theorem present_failures (c : Command) : (present c s).failures = s.failures := rfl
@[simp] theorem present_draws (c : Command) : (present c s).draws = s.draws := rfl

/-! writeCorePair: everything but the core registers and the draw counter. -/

@[simp] theorem writeCorePair_vfp_fpsid (form : ExchangeForm) (a b : Fin 16) (u v : Word) :
    (writeCorePair form a b u v s).vfp.fpsid = s.vfp.fpsid := by
  unfold writeCorePair; split <;> rfl
@[simp] theorem writeCorePair_vfp_fpexc (form : ExchangeForm) (a b : Fin 16) (u v : Word) :
    (writeCorePair form a b u v s).vfp.fpexc = s.vfp.fpexc := by
  unfold writeCorePair; split <;> rfl
@[simp] theorem writeCorePair_vfp_fpscr (form : ExchangeForm) (a b : Fin 16) (u v : Word) :
    (writeCorePair form a b u v s).vfp.fpscr = s.vfp.fpscr := by
  unfold writeCorePair; split <;> rfl
@[simp] theorem writeCorePair_vfp_slots (form : ExchangeForm) (a b : Fin 16) (u v : Word) :
    (writeCorePair form a b u v s).vfp.slots = s.vfp.slots := by
  unfold writeCorePair; split <;> rfl
@[simp] theorem writeCorePair_params (form : ExchangeForm) (a b : Fin 16) (u v : Word) :
    (writeCorePair form a b u v s).params = s.params := by
  unfold writeCorePair; split <;> rfl
@[simp] theorem writeCorePair_inputs (form : ExchangeForm) (a b : Fin 16) (u v : Word) :
    (writeCorePair form a b u v s).inputs = s.inputs := by
  unfold writeCorePair; split <;> rfl
@[simp] theorem writeCorePair_position (form : ExchangeForm) (a b : Fin 16) (u v : Word) :
    (writeCorePair form a b u v s).position = s.position := by
  unfold writeCorePair; split <;> rfl
@[simp] theorem writeCorePair_response (form : ExchangeForm) (a b : Fin 16) (u v : Word) :
    (writeCorePair form a b u v s).response = s.response := by
  unfold writeCorePair; split <;> rfl
@[simp] theorem writeCorePair_failures (form : ExchangeForm) (a b : Fin 16) (u v : Word) :
    (writeCorePair form a b u v s).failures = s.failures := by
  unfold writeCorePair; split <;> rfl

end Sys2Proof.Machine
end

