-- ==== Sys2Proof/Laws/Ops.lean ====
section
/-! SUPPORT. One lemma for each shared operation that says once what it does: what it answers, and what a read
after a write gives. -/

namespace Sys2Proof.Machine

/-! Outcomes. -/

@[simp] theorem complete_eq (r0 r1 : Word) (s : State) :
    complete r0 r1 s = .next { s with response := some ⟨0, r0, r1⟩ } := rfl

theorem fail_index (s : State) : fail .invalidRegisterIndex s = .next (indexFailed s) := rfl

theorem fail_command (s : State) : fail .invalidCommand s = .next (commandRejected s) := rfl

theorem fail_eq (f : Fault) (s : State) :
    fail f s = .next { s with response := some (failureResponse f), failures := s.failures ++ [f] } := rfl

/-- No failure has the status of OK. -/
theorem failureResponse_status_ne (f : Fault) : (failureResponse f).status ≠ 0 := by
  cases f <;> simp [failureResponse]

/-! Range checks. -/

theorem withSingle_valid (i : Fin 32) (s : State) (go : Fin 32 → Answer) : withSingle i s go = go i := by
  simp [withSingle]

theorem withSingle_invalid {i : Nat} (h : 32 ≤ i) (s : State) (go : Fin 32 → Answer) :
    withSingle i s go = .next (indexFailed s) := by
  simp [withSingle, Nat.not_lt.mpr h, fail_index]

/-- Everything a checked single index can lead to. -/
theorem withSingle_cases (i : Nat) (s : State) (go : Fin 32 → Answer) :
    (∃ j : Fin 32, j.val = i ∧ withSingle i s go = go j) ∨
      (32 ≤ i ∧ withSingle i s go = .next (indexFailed s)) := by
  by_cases h : i < 32
  · exact .inl ⟨⟨i, h⟩, rfl, by simp [withSingle, h]⟩
  · exact .inr ⟨Nat.not_lt.mp h, withSingle_invalid (Nat.not_lt.mp h) s go⟩

theorem withDouble_valid (d : Fin 16) (s : State) (go : Fin 16 → Answer) : withDouble d s go = go d := by
  simp [withDouble]

theorem withDouble_invalid {d : Nat} (h : 16 ≤ d) (s : State) (go : Fin 16 → Answer) :
    withDouble d s go = .next (indexFailed s) := by
  simp [withDouble, Nat.not_lt.mpr h, fail_index]

/-- Everything a checked double index can lead to. -/
theorem withDouble_cases (d : Nat) (s : State) (go : Fin 16 → Answer) :
    (∃ e : Fin 16, e.val = d ∧ withDouble d s go = go e) ∨
      (16 ≤ d ∧ withDouble d s go = .next (indexFailed s)) := by
  by_cases h : d < 16
  · exact .inl ⟨⟨d, h⟩, rfl, by simp [withDouble, h]⟩
  · exact .inr ⟨Nat.not_lt.mp h, withDouble_invalid (Nat.not_lt.mp h) s go⟩

/-! Slots and core registers: a read after a write. -/

@[simp] theorem readSlot_writeSlot_self (i : Fin 32) (w : Word) (s : State) :
    readSlot (writeSlot i w s) i = w := by
  simp [readSlot]

theorem readSlot_writeSlot_ne {i j : Fin 32} (h : i ≠ j) (w : Word) (s : State) :
    readSlot (writeSlot i w s) j = readSlot s j := by
  simp [readSlot, Fin.val_ne_of_ne h]

@[simp] theorem readCore_writeCore_self (i : Fin 16) (w : Word) (s : State) :
    readCore (writeCore i w s) i = w := by
  simp [readCore]

theorem readCore_writeCore_ne {i j : Fin 16} (h : i ≠ j) (w : Word) (s : State) :
    readCore (writeCore i w s) j = readCore s j := by
  simp [readCore, Fin.val_ne_of_ne h]

theorem lowSlot_ne_highSlot (d e : Fin 16) : lowSlot d ≠ highSlot e := by
  simp only [lowSlot, highSlot, ne_eq, Fin.mk.injEq]; omega

@[simp] theorem readSlot_writePair_low (d : Fin 16) (lo hi : Word) (s : State) :
    readSlot (writePair d lo hi s) (lowSlot d) = lo := by
  rw [writePair, readSlot_writeSlot_ne (lowSlot_ne_highSlot d d).symm, readSlot_writeSlot_self]

@[simp] theorem readSlot_writePair_high (d : Fin 16) (lo hi : Word) (s : State) :
    readSlot (writePair d lo hi s) (highSlot d) = hi := by
  rw [writePair, readSlot_writeSlot_self]

theorem readSlot_writePair_ne {d : Fin 16} {j : Fin 32} (hl : lowSlot d ≠ j) (hh : highSlot d ≠ j)
    (lo hi : Word) (s : State) : readSlot (writePair d lo hi s) j = readSlot s j := by
  rw [writePair, readSlot_writeSlot_ne hh, readSlot_writeSlot_ne hl]

/-- The low word as a number. -/
theorem lowWord_toNat (v : DWord) : (lowWord v).toNat = v.toNat % 2 ^ 32 := by
  simp [lowWord]

/-- The high word as a number. -/
theorem highWord_toNat (v : DWord) : (highWord v).toNat = v.toNat / 2 ^ 32 := by
  have := v.isLt
  simp only [highWord, BitVec.extractLsb'_toNat, Nat.shiftRight_eq_div_pow]
  omega

/-- A 64-bit value is its high word above its low word. -/
@[simp] theorem highWord_append_lowWord (v : DWord) : (highWord v ++ lowWord v : DWord) = v := by
  apply BitVec.eq_of_toNat_eq
  rw [dword_toNat, lowWord_toNat, highWord_toNat]
  omega

@[simp] theorem lowWord_append (hi lo : Word) : lowWord (hi ++ lo) = lo := by
  apply BitVec.eq_of_toNat_eq
  have := lo.isLt
  rw [lowWord_toNat, dword_toNat]
  omega

@[simp] theorem highWord_append (hi lo : Word) : highWord (hi ++ lo) = hi := by
  apply BitVec.eq_of_toNat_eq
  have := lo.isLt
  rw [highWord_toNat, dword_toNat]
  omega

/-- The two views see one storage: D[d] after a write of D[d]. -/
@[simp] theorem readDouble_writeDouble_self (d : Fin 16) (v : DWord) (s : State) :
    readDouble (writeDouble d v s) d = v := by
  simp [readDouble, writeDouble]

/-- All that the to-core half of a double exchange can do (R121). -/
theorem writeCorePair_cases (form : ExchangeForm) (low high : Fin 16) (wl wh : Word) (s : State) :
    (low ≠ high ∧ writeCorePair form low high wl wh s = { s with x := (s.x.set low wl).set high wh }) ∨
      (low = high ∧ ∃ w, (w = wl ∨ w = wh) ∧
        writeCorePair form low high wl wh s =
          { s with x := s.x.set low w, draws := s.draws + 1 }) := by
  by_cases h : low = high
  · refine .inr ⟨h, if Config.drawHigh form s.draws then wh else wl, ?_, ?_⟩
    · split <;> simp
    · simp [writeCorePair, h, writeCore]
  · exact .inl ⟨h, by simp [writeCorePair, h, writeCore]⟩

/-! The aggregation, bit by bit (R163, R164). -/

theorem aggregate_getLsbD (p : Params) (bits snapshot : Word) (b : Nat) :
    (aggregate p bits snapshot).getLsbD b =
      (bits.getLsbD b || (snapshot.getLsbD b && !(hasCondition p bits && p.condMask.getLsbD b))) := by
  by_cases hb : b < 32
  · by_cases h : hasCondition p bits = true <;>
      simp [aggregate, workingValue, h, Bool.or_comm, hb]
  · simp [BitVec.getLsbD_of_ge _ _ (Nat.not_lt.mp hb)]

/-! A step. -/

theorem step_command {s : State} {c : Command} {rest : List Input} (h : s.inputs = .command c :: rest) :
    step s = runCommand c (takeCommand rest s) := by
  simp [step, runNext, h]

theorem step_reset {s : State} {rest : List Input} (h : s.inputs = .reset :: rest) :
    step s = .next (resetBlock (takeReset rest s)) := by
  simp [step, runNext, h]

theorem step_empty {s : State} (h : s.inputs = []) : step s = .refused .noCommand := by
  simp [step, runNext, h]

/-! A run. -/

theorem runSteps_zero (s : State) : runSteps 0 s = .next s := rfl

theorem runSteps_succ_next {s t : State} (h : step s = .next t) (n : Nat) :
    runSteps (n + 1) s = runSteps n t := by
  have h' : Sys2Proof.core.step s = .next t := h
  simp only [runSteps, Host.Core.run, h']
  rfl

theorem runSteps_succ_refused {s : State} {r : Refusal} (h : step s = .refused r) (n : Nat) :
    runSteps (n + 1) s = .refused r := by
  have h' : Sys2Proof.core.step s = .refused r := h
  simp only [runSteps, Host.Core.run, h']
  rfl

end Sys2Proof.Machine
end

