-- ==== Sys2Proof/Laws/Exec.lean ====
section
/-! SUPPORT. What each meaning does on valid operands, in terms of the shared operations, and the one inversion lemma
of `exec`: everything it can answer. -/

namespace Sys2Proof.Machine

/-! Valid operands, one lemma per operation. -/

theorem exec_rds (i : Fin 32) (s : State) : exec (.rds i) s = complete (readSlot s i) 0 s := by
  rw [exec, execRds, withSingle_valid]

theorem exec_wrs (i : Fin 32) (w : Word) (s : State) : exec (.wrs i w) s = complete 0 0 (writeSlot i w s) := by
  rw [exec, execWrs, withSingle_valid]

theorem exec_rdd (d : Fin 16) (s : State) :
    exec (.rdd d) s = complete (readSlot s (lowSlot d)) (readSlot s (highSlot d)) s := by
  rw [exec, execRdd, withDouble_valid, readDouble, lowWord_append, highWord_append]

theorem exec_wrd (d : Fin 16) (v : DWord) (s : State) :
    exec (.wrd d v) s = complete 0 0 (writePair d (lowWord v) (highWord v) s) := by
  rw [exec, execWrd, withDouble_valid, writeDouble]

theorem exec_movsV (i : Fin 32) (t : Fin 16) (s : State) :
    exec (.movsV i t) s = complete 0 0 (writeSlot i (readCore s t) s) := by
  rw [exec, execMovsV, withSingle_valid]

theorem exec_movsC (i : Fin 32) (t : Fin 16) (s : State) :
    exec (.movsC i t) s = complete 0 0 (writeCore t (readSlot s i) s) := by
  rw [exec, execMovsC, withSingle_valid]

theorem exec_movdpV (d low high : Fin 16) (s : State) :
    exec (.movdpV d low high) s = complete 0 0 (writePair d (readCore s low) (readCore s high) s) := by
  rw [exec, execMovdpV, withDouble_valid]

theorem exec_movdpC (d low high : Fin 16) (s : State) :
    exec (.movdpC d low high) s =
      complete 0 0 (writeCorePair .paired low high (readSlot s (lowSlot d)) (readSlot s (highSlot d)) s) := by
  rw [exec, execMovdpC, withDouble_valid]

theorem exec_movdsV (d a b : Fin 16) (s : State) :
    exec (.movdsV d a b) s = complete 0 0 (writePair d (readCore s a) (readCore s b) s) := by
  rw [exec, execMovdsV, withDouble_valid]

theorem exec_movdsC (d a b : Fin 16) (s : State) :
    exec (.movdsC d a b) s =
      complete 0 0 (writeCorePair .split a b (readSlot s (lowSlot d)) (readSlot s (highSlot d)) s) := by
  rw [exec, execMovdsC, withDouble_valid]

theorem exec_ldiD (d : Fin 16) (w : Word) (s : State) :
    exec (.ldiD d w) s = complete 0 0 (writePair d 0 w s) := by
  rw [exec, execLdiD, withDouble_valid]

theorem exec_ldiS (i : Fin 32) (w : Word) (s : State) : exec (.ldiS i w) s = complete 0 0 (writeSlot i w s) := by
  rw [exec, execLdiS, withSingle_valid]

theorem exec_cpyD (d m : Fin 16) (s : State) :
    exec (.cpyD d m) s = complete 0 0 (writePair d (readSlot s (lowSlot m)) (readSlot s (highSlot m)) s) := by
  rw [exec, execCpyD, withDouble_valid, withDouble_valid]

theorem exec_cpyS (i j : Fin 32) (s : State) :
    exec (.cpyS i j) s = complete 0 0 (writeSlot i (readSlot s j) s) := by
  rw [exec, execCpyS, withSingle_valid, withSingle_valid]

theorem exec_raise_commit {s : State} {e : Word} (h : e ≠ s.params.errorSentinel) (iw c : Word) :
    exec (.raise e iw c) s =
      complete (aggregate s.params e c) 0 (writeFpscr (aggregate s.params e c) s) :=
  if_neg h

theorem exec_raise_fatal (iw c : Word) (s : State) :
    exec (.raise s.params.errorSentinel iw c) s = fail (.fatalFloatingPointFault iw) s :=
  if_pos rfl

/-- What no operation's own writes touch. -/
def SameEnvironment (s u : State) : Prop :=
  u.vfp.fpsid = s.vfp.fpsid ∧ u.params = s.params ∧ u.inputs = s.inputs ∧ u.position = s.position ∧
    u.response = s.response ∧ u.failures = s.failures

/-- Everything `exec` can answer: an index failure, the fatal failure, or a completion whose writes leave the
environment alone. -/
theorem exec_cases (i : Instr) (s : State) :
    (badIndex i = true ∧ exec i s = .next (indexFailed s)) ∨
      (∃ iw c, i = .raise s.params.errorSentinel iw c ∧ exec i s = fail (.fatalFloatingPointFault iw) s) ∨
      (badIndex i = false ∧ ∃ r0 r1 u, exec i s = complete r0 r1 u ∧ SameEnvironment s u) := by
  have same {u : State} (h : SameEnvironment s u) {r0 r1 : Word} {a : Answer} (e : a = complete r0 r1 u) :
      ∃ r0 r1 u, a = complete r0 r1 u ∧ SameEnvironment s u := ⟨r0, r1, u, e, h⟩
  have single (n : Nat) (go : Fin 32 → Answer)
      (hgo : ∀ j, ∃ r0 r1 u, go j = complete r0 r1 u ∧ SameEnvironment s u) :
      (31 < n ∧ withSingle n s go = .next (indexFailed s)) ∨
        (¬31 < n ∧ ∃ r0 r1 u, withSingle n s go = complete r0 r1 u ∧ SameEnvironment s u) := by
    rcases withSingle_cases n s go with ⟨j, hj, e⟩ | ⟨h, e⟩
    · exact .inr ⟨by omega, e ▸ hgo j⟩
    · exact .inl ⟨h, e⟩
  have double (n : Nat) (go : Fin 16 → Answer)
      (hgo : ∀ j, ∃ r0 r1 u, go j = complete r0 r1 u ∧ SameEnvironment s u) :
      (15 < n ∧ withDouble n s go = .next (indexFailed s)) ∨
        (¬15 < n ∧ ∃ r0 r1 u, withDouble n s go = complete r0 r1 u ∧ SameEnvironment s u) := by
    rcases withDouble_cases n s go with ⟨j, hj, e⟩ | ⟨h, e⟩
    · exact .inr ⟨by omega, e ▸ hgo j⟩
    · exact .inl ⟨h, e⟩
  have lift {p : Prop} [Decidable p] {a : Answer} {q r : Prop}
      (h : (p ∧ a = .next (indexFailed s)) ∨ (¬p ∧ r)) :
      (decide p = true ∧ a = .next (indexFailed s)) ∨ q ∨ (decide p = false ∧ r) := by
    rcases h with ⟨h, e⟩ | ⟨h, e⟩
    · exact .inl ⟨decide_eq_true h, e⟩
    · exact .inr (.inr ⟨decide_eq_false h, e⟩)
  cases i with
  | msr sel v =>
    refine .inr (.inr ⟨rfl, ?_⟩)
    simp only [exec, execMsr]
    split
    · exact same (by simp [SameEnvironment]) rfl
    · split <;> exact same (by simp [SameEnvironment]) rfl
  | raise e iw c =>
    by_cases h : e = s.params.errorSentinel
    · exact .inr (.inl ⟨iw, c, by rw [h], by rw [h]; exact exec_raise_fatal iw c s⟩)
    · exact .inr (.inr ⟨rfl, same (by simp [SameEnvironment]) (exec_raise_commit h iw c)⟩)
  | cpyD d m =>
    rw [exec, execCpyD]
    rcases withDouble_cases d s _ with ⟨j, hj, e⟩ | ⟨h, e⟩
    · rw [e]
      rcases double m (fun m => complete 0 0 (writePair j (readSlot s (lowSlot m)) (readSlot s (highSlot m)) s))
        (fun k => same (by simp [SameEnvironment]) rfl) with ⟨h, e'⟩ | ⟨h, e'⟩
      · exact .inl ⟨by simp [badIndex, h], e'⟩
      · exact .inr (.inr ⟨by simp [badIndex]; omega, e'⟩)
    · exact .inl ⟨by simp [badIndex]; omega, e⟩
  | cpyS d m =>
    rw [exec, execCpyS]
    rcases withSingle_cases d s _ with ⟨j, hj, e⟩ | ⟨h, e⟩
    · rw [e]
      rcases single m (fun m => complete 0 0 (writeSlot j (readSlot s m) s)) (fun k => same (by simp [SameEnvironment]) rfl) with ⟨h, e'⟩ | ⟨h, e'⟩
      · exact .inl ⟨by simp [badIndex, h], e'⟩
      · exact .inr (.inr ⟨by simp [badIndex]; omega, e'⟩)
    · exact .inl ⟨by simp [badIndex]; omega, e⟩
  | rds n => rw [exec, execRds]; exact lift (single n _ fun _ => same (by simp [SameEnvironment]) rfl)
  | wrs n w => rw [exec, execWrs]; exact lift (single n _ fun _ => same (by simp [SameEnvironment]) rfl)
  | movsV n t => rw [exec, execMovsV]; exact lift (single n _ fun _ => same (by simp [SameEnvironment]) rfl)
  | movsC n t => rw [exec, execMovsC]; exact lift (single n _ fun _ => same (by simp [SameEnvironment]) rfl)
  | ldiS n w => rw [exec, execLdiS]; exact lift (single n _ fun _ => same (by simp [SameEnvironment]) rfl)
  | rdd n => rw [exec, execRdd]; exact lift (double n _ fun _ => same (by simp [SameEnvironment]) rfl)
  | wrd n v => rw [exec, execWrd]; exact lift (double n _ fun _ => same (by simp [SameEnvironment]) rfl)
  | movdpV n a b => rw [exec, execMovdpV]; exact lift (double n _ fun _ => same (by simp [SameEnvironment]) rfl)
  | movdpC n a b => rw [exec, execMovdpC]; exact lift (double n _ fun _ => same (by simp [SameEnvironment]) rfl)
  | movdsV n a b => rw [exec, execMovdsV]; exact lift (double n _ fun _ => same (by simp [SameEnvironment]) rfl)
  | movdsC n a b => rw [exec, execMovdsC]; exact lift (double n _ fun _ => same (by simp [SameEnvironment]) rfl)
  | ldiD n w => rw [exec, execLdiD]; exact lift (double n _ fun _ => same (by simp [SameEnvironment]) rfl)

end Sys2Proof.Machine
end

