-- ==== Sys2Proof/Laws/PerInstr.lean ====
section
/-! SUPPORT. The family RowMatch: every operation's encoded header selects its own row of the operation table
(30_encoding.md R79), whatever the operands. -/

namespace Sys2Proof.Laws.RowMatch

/-- The header of the operation's command, under the common mask, is its row's match. -/
def Statement (i : Instr) : Prop := (encode i).hdr &&& 0xFF000000#32 = matchOf i

/-- A packed header's match is its operation code and variant flag. -/
theorem packHeader_match (op : BitVec 4) (f : Bool) (vm vd : Nat) (t2 t : Fin 16) :
    packHeader op f vm vd t2 t &&& 0xFF000000#32 = packHeader op f 0 0 0 0 := by
  apply BitVec.eq_of_toNat_eq
  rw [mask_toNat_fields, packHeader_toNat]
  simp

theorem rds (reg : Nat) : Statement (.rds reg) := packHeader_match ..
theorem wrs (reg : Nat) (word : Word) : Statement (.wrs reg word) := packHeader_match ..
theorem rdd (reg : Nat) : Statement (.rdd reg) := packHeader_match ..
theorem wrd (reg : Nat) (value : DWord) : Statement (.wrd reg value) := packHeader_match ..
theorem msr (selector : Nat) (value : Word) : Statement (.msr selector value) := packHeader_match ..
theorem movsV (vfpReg : Nat) (coreReg : Fin 16) : Statement (.movsV vfpReg coreReg) := packHeader_match ..
theorem movsC (vfpReg : Nat) (coreReg : Fin 16) : Statement (.movsC vfpReg coreReg) := packHeader_match ..
theorem movdpV (vfpReg : Nat) (low high : Fin 16) : Statement (.movdpV vfpReg low high) := packHeader_match ..
theorem movdpC (vfpReg : Nat) (low high : Fin 16) : Statement (.movdpC vfpReg low high) := packHeader_match ..
theorem movdsV (vfpReg : Nat) (a b : Fin 16) : Statement (.movdsV vfpReg a b) := packHeader_match ..
theorem movdsC (vfpReg : Nat) (a b : Fin 16) : Statement (.movdsC vfpReg a b) := packHeader_match ..
theorem ldiD (destReg : Nat) (immediate : Word) : Statement (.ldiD destReg immediate) := packHeader_match ..
theorem ldiS (destReg : Nat) (immediate : Word) : Statement (.ldiS destReg immediate) := packHeader_match ..
theorem cpyD (dest src : Nat) : Statement (.cpyD dest src) := packHeader_match ..
theorem cpyS (dest src : Nat) : Statement (.cpyS dest src) := packHeader_match ..
theorem raise (bits instructionWord snapshot : Word) : Statement (.raise bits instructionWord snapshot) :=
  packHeader_match ..

end Sys2Proof.Laws.RowMatch
end

