-- ==== Sys2Proof/Tests/Slice0.lean ====
section
/-! SUPPORT. The model's own tests. Every expected value is copied from the spec: 95_test_vectors.md (V and S numbers)
or the worked example of the rule named. Witnesses at the end: for every statement of Certificates/Slice0 that has
hypotheses, a concrete state and operands that meet them, at the ends of their ranges. -/

namespace Sys2Proof.Tests

open Sys2Proof Sys2Proof.Machine

/-! Helpers. -/

/-- The answer is a next state of which `p` holds. -/
def answers (a : Answer) (p : State → Bool) : Bool :=
  match a with
  | .next t => p t
  | .fault _ => false
  | .refused _ => false

/-- One step on the command with these four words. -/
def stepOn (s : State) (hdr d0 d1 d2 : Word) : Answer := step (present ⟨hdr, d0, d1, d2⟩ s)

/-- Reset state with some slots given. -/
def withSlots (l : List (Fin 32 × Word)) : State := l.foldl (fun s p => writeSlot p.1 p.2 s) State.reset

/-- With some core registers given. -/
def withCore (l : List (Fin 16 × Word)) (s : State) : State := l.foldl (fun s p => writeCore p.1 p.2 s) s

/-- Reset state with FPSCR and FPEXC given. -/
def withStatus (fpscr fpexc : Word) : State := writeFpexc fpexc (writeFpscr fpscr State.reset)

/-- The response the state holds. -/
def responds (t : State) (status : BitVec 2) (r0 r1 : Word) : Bool := t.response == some ⟨status, r0, r1⟩

/-! Well-formedness: for each check an operation it refuses (R72: the field is 8 bits wide). -/

theorem test_wf_refuses_rds : (Instr.rds 256).wf = false := by decide
theorem test_wf_refuses_wrs : (Instr.wrs 256 0).wf = false := by decide
theorem test_wf_refuses_rdd : (Instr.rdd 256).wf = false := by decide
theorem test_wf_refuses_wrd : (Instr.wrd 256 0).wf = false := by decide
theorem test_wf_refuses_msr : (Instr.msr 256 0).wf = false := by decide
theorem test_wf_refuses_movsV : (Instr.movsV 256 0).wf = false := by decide
theorem test_wf_refuses_movsC : (Instr.movsC 256 0).wf = false := by decide
theorem test_wf_refuses_movdpV : (Instr.movdpV 256 0 1).wf = false := by decide
theorem test_wf_refuses_movdpC : (Instr.movdpC 256 0 1).wf = false := by decide
theorem test_wf_refuses_movdsV : (Instr.movdsV 256 0 1).wf = false := by decide
theorem test_wf_refuses_movdsC : (Instr.movdsC 256 0 1).wf = false := by decide
theorem test_wf_refuses_ldiD : (Instr.ldiD 256 0).wf = false := by decide
theorem test_wf_refuses_ldiS : (Instr.ldiS 256 0).wf = false := by decide
theorem test_wf_refuses_cpyD_dest : (Instr.cpyD 256 0).wf = false := by decide
theorem test_wf_refuses_cpyD_src : (Instr.cpyD 0 256).wf = false := by decide
theorem test_wf_refuses_cpyS_dest : (Instr.cpyS 256 0).wf = false := by decide
theorem test_wf_refuses_cpyS_src : (Instr.cpyS 0 256).wf = false := by decide
theorem test_wf_admits_bad_index : (Instr.cpyS 255 255).wf = true := by decide

/-! Decoding: one word per operation, written bit by bit (R71: op 4, f 1, rsv 3, vm 8, vd 8, t2 4, t 4). -/

theorem test_decode_rds : decodeTableWord 32 0b0000_0_000_00000000_00000110_0000_0000 = some (.rds 6) := by decide
theorem test_decode_wrs :
    decodeTableWord 64 (0xDEADBEEF * 2 ^ 32 + 0b0001_0_000_00000000_00000101_0000_0000) =
      some (.wrs 5 0xDEADBEEF) := by decide
theorem test_decode_rdd : decodeTableWord 32 0b0010_0_000_00000000_00000011_0000_0000 = some (.rdd 3) := by decide
theorem test_decode_wrd :
    decodeTableWord 96
        (0x11223344 * 2 ^ 64 + 0x55667788 * 2 ^ 32 + 0b0011_0_000_00000000_00000011_0000_0000) =
      some (.wrd 3 0x1122334455667788) := by decide
theorem test_decode_msr :
    decodeTableWord 64 (0x60000001 * 2 ^ 32 + 0b0100_0_000_00000000_00000001_0000_0000) =
      some (.msr 1 0x60000001) := by decide
theorem test_decode_movsV :
    decodeTableWord 32 0b0101_0_000_00000000_00011111_0000_0100 = some (.movsV 31 4) := by decide
theorem test_decode_movsC :
    decodeTableWord 32 0b0101_1_000_00000000_00000011_0000_0100 = some (.movsC 3 4) := by decide
theorem test_decode_movdpV :
    decodeTableWord 32 0b0110_0_000_00000000_00000001_0001_0000 = some (.movdpV 1 0 1) := by decide
theorem test_decode_movdpC :
    decodeTableWord 32 0b0110_1_000_00000000_00000101_0011_0010 = some (.movdpC 5 2 3) := by decide
theorem test_decode_movdsV :
    decodeTableWord 32 0b0111_0_000_00000000_00001111_0111_0110 = some (.movdsV 15 6 7) := by decide
theorem test_decode_movdsC :
    decodeTableWord 32 0b0111_1_000_00000000_00000001_0011_0010 = some (.movdsC 1 2 3) := by decide
theorem test_decode_ldiD :
    decodeTableWord 64 (0xCAFEBABE * 2 ^ 32 + 0b1000_0_000_00000000_00000010_0000_0000) =
      some (.ldiD 2 0xCAFEBABE) := by decide
theorem test_decode_ldiS :
    decodeTableWord 64 (0x3F800000 * 2 ^ 32 + 0b1000_1_000_00000000_00000101_0000_0000) =
      some (.ldiS 5 0x3F800000) := by decide
theorem test_decode_cpyD :
    decodeTableWord 32 0b1001_0_000_00000001_00000000_0000_0000 = some (.cpyD 0 1) := by decide
theorem test_decode_cpyS :
    decodeTableWord 32 0b1001_1_000_00000000_00011111_0000_0000 = some (.cpyS 31 0) := by decide
theorem test_decode_raise :
    decodeTableWord 128
        (0x60000001 * 2 ^ 96 + 0xEEB40A40 * 2 ^ 64 + 0x80000000 * 2 ^ 32 +
          0b1010_0_000_00000000_00000000_0000_0000) =
      some (.raise 0x80000000 0xEEB40A40 0x60000001) := by decide

/-- R73, V8: unused fields are ignored. -/
theorem test_decode_ignores_unused : decode ⟨0x00FF06FF, 1, 2, 3⟩ = .ok (.rds 6) := by decide

/-- Bits above nbits are zero, so the data word is 0. -/
theorem test_decode_drops_high_bits : decodeTableWord 32 (2 ^ 32 + 0x88000500) = some (.ldiS 5 0) := by decide

/-- R80: the two worked headers. -/
theorem test_encode_headers :
    (encode (.movdpC 5 2 3)).hdr = 0x68000532 ∧ (encode (.cpyS 31 0)).hdr = 0x98001F00 := by decide

/-- V8: every reserved header of the table. -/
theorem test_decode_reserved :
    [0xB0000000, 0xC0000000, 0xD0000000, 0xE0000000, 0xF0000000, 0xFFFFFFFF, 0x08000600, 0x18000500, 0x28000300,
      0x38000300, 0x48000100, 0xA8000000, 0x01000600, 0x02000600, 0x04000600, 0x5F000304].all
      (fun w => decodeTableWord 32 w == none) = true := by decide

/-! One step each, from the command's words. -/

/-- V1. -/
theorem test_rds :
    answers (stepOn (withSlots [(6, 0x55667788), (7, 0x11223344)]) 0x00000600 0 0 0)
      (responds · 0 0x55667788 0) = true := by decide
/-- V1. -/
theorem test_rds_out_of_range :
    answers (stepOn State.reset 0x00002000 0 0 0) (responds · 1 0 0) = true := by decide
/-- S1. -/
theorem test_wrs :
    answers (stepOn State.reset 0x10000500 0xDEADBEEF 0 0)
      (fun t => readSlot t 5 == 0xDEADBEEF && responds t 0 0 0) = true := by decide
/-- V1: the other half of the double is kept. -/
theorem test_wrs_keeps_other_half :
    answers (stepOn (withSlots [(6, 0x55667788), (7, 0x11223344)]) 0x10000700 0xA5A5A5A5 0 0)
      (fun t => readDouble t 3 == 0xA5A5A5A555667788) = true := by decide
/-- V1. -/
theorem test_rdd :
    answers (stepOn (withSlots [(6, 0x55667788), (7, 0x11223344)]) 0x20000300 0 0 0)
      (responds · 0 0x55667788 0x11223344) = true := by decide
/-- V1. -/
theorem test_rdd_out_of_range :
    answers (stepOn State.reset 0x20001000 0 0 0) (responds · 1 0 0) = true := by decide
/-- V1. -/
theorem test_wrd :
    answers (stepOn State.reset 0x30000F00 0x05060708 0x01020304 0)
      (fun t => readSlot t 30 == 0x05060708 && readSlot t 31 == 0x01020304) = true := by decide
/-- V1. -/
theorem test_wrd_out_of_range :
    answers (stepOn State.reset 0x30001000 1 0 0)
      (fun t => t.vfp == State.reset.vfp && responds t 1 0 0) = true := by decide
/-- V2. -/
theorem test_msr_fpscr :
    answers (stepOn (withStatus 0x60000015 0x40000000) 0x40000100 0xFFFFFEFF 0 0)
      (fun t => t.vfp.fpscr == 0xFFFFFEFF && t.vfp.fpexc == 0x40000000 && responds t 0 0 0) = true := by decide
/-- V2. -/
theorem test_msr_unknown_selector :
    answers (stepOn (withStatus 0x60000015 0x40000000) 0x40000000 0xDEADBEEF 0 0)
      (fun t => t.vfp == (withStatus 0x60000015 0x40000000).vfp && responds t 0 0 0) = true := by decide
/-- V3. -/
theorem test_movsV :
    answers (stepOn (withCore [(0, 0xAAAA1111)] State.reset) 0x50000900 0 0 0)
      (fun t => readSlot t 9 == 0xAAAA1111 && readSlot t 8 == 0) = true := by decide
/-- V3. -/
theorem test_movsC :
    answers (stepOn (withCore [(4, 0x44444444)] (withSlots [(3, 0xBBBB2222)])) 0x58000304 0 0 0)
      (fun t => readCore t 4 == 0xBBBB2222) = true := by decide
/-- V3: index 15 like any other. -/
theorem test_movsC_index_15 :
    answers (stepOn (withCore [(15, 0x0000F00D)] (withSlots [(3, 0xBBBB2222)])) 0x5800030F 0 0 0)
      (fun t => readCore t 15 == 0xBBBB2222) = true := by decide
/-- V4. -/
theorem test_movdpV :
    answers (stepOn (withCore [(0, 0xAAAA1111), (1, 0xBBBB2222)] State.reset) 0x60000F01 0 0 0)
      (fun t => readSlot t 30 == 0xBBBB2222 && readSlot t 31 == 0xAAAA1111) = true := by decide
/-- V4. -/
theorem test_movdpC :
    answers (stepOn (withSlots [(10, 0x89ABCDEF), (11, 0x01234567)]) 0x68000523 0 0 0)
      (fun t => readCore t 3 == 0x89ABCDEF && readCore t 2 == 0x01234567) = true := by decide
/-- V4: one register named twice; only what the spec fixes. -/
theorem test_movdpC_equal :
    answers (stepOn (withSlots [(10, 0x89ABCDEF), (11, 0x01234567)]) 0x68000522 0 0 0)
      (fun t => readCore t 3 == 0 && responds t 0 0 0) = true := by decide
/-- R128. -/
theorem test_movdsV :
    answers (stepOn (withCore [(6, 0x13579BDF), (7, 0x2468ACE0)] State.reset) 0x70000F76 0 0 0)
      (fun t => readSlot t 30 == 0x13579BDF && readSlot t 31 == 0x2468ACE0) = true := by decide
/-- V4: 31 is no valid operand of the split form. -/
theorem test_movdsV_out_of_range :
    answers (stepOn State.reset 0x70001F10 0 0 0) (responds · 1 0 0) = true := by decide
/-- R127. -/
theorem test_movdsC :
    answers (stepOn (withSlots [(2, 0xAAAA1111), (3, 0xBBBB2222)]) 0x78000132 0 0 0)
      (fun t => readCore t 2 == 0xAAAA1111 && readCore t 3 == 0xBBBB2222) = true := by decide
/-- V5, S6. -/
theorem test_ldiD :
    answers (stepOn (withSlots [(4, 0x44444444), (5, 0x55555555)]) 0x80000200 0xCAFEBABE 0 0)
      (fun t => readDouble t 2 == 0xCAFEBABE00000000) = true := by decide
/-- V5. -/
theorem test_ldiS :
    answers (stepOn (withSlots [(4, 0x44444444), (5, 0x55555555)]) 0x88000500 0x3F800000 0 0)
      (fun t => readSlot t 5 == 0x3F800000 && readSlot t 4 == 0x44444444) = true := by decide
/-- V6. -/
theorem test_cpyD :
    answers (stepOn (withSlots [(2, 0xAAAA1111), (3, 0xBBBB2222)]) 0x90010000 0 0 0)
      (fun t => readSlot t 0 == 0xAAAA1111 && readSlot t 1 == 0xBBBB2222) = true := by decide
/-- V6: a bad source. -/
theorem test_cpyD_bad_source :
    answers (stepOn State.reset 0x90100000 0 0 0) (responds · 1 0 0) = true := by decide
/-- V6. -/
theorem test_cpyS :
    answers (stepOn (withSlots [(2, 0xAAAA1111), (3, 0xBBBB2222)]) 0x98030200 0 0 0)
      (fun t => readDouble t 1 == 0xBBBB2222BBBB2222) = true := by decide
/-- V6: both bad. -/
theorem test_cpyS_both_bad :
    answers (stepOn State.reset 0x98282800 0 0 0) (responds · 1 0 0) = true := by decide
/-- V7 row 3 (default parameters): replace and accumulate in one command. -/
theorem test_raise :
    answers (stepOn (withStatus 0x80000011 0) 0xA0000000 0x60000004 0xEEB40A40 0x80000011)
      (fun t => t.vfp.fpscr == 0x60000015 && responds t 0 0x60000015 0) = true := by decide
/-- V7 (default parameters): the sentinel with a stale snapshot. -/
theorem test_raise_fatal :
    answers (stepOn (withStatus 0x60000015 0) 0xA0000000 0xFFFFFEFF 0xEEB40A40 0)
      (fun t => t.vfp.fpscr == 0x60000015 && responds t 2 0xEEB40A40 0) = true := by decide

/-- V7 (default parameters), the value that is committed: bitmask, snapshot, result. -/
theorem test_aggregate :
    [(0x80000000, 0x60000001, 0x80000001), (0x00000010, 0x80000001, 0x80000011), (0, 0x60000015, 0x60000015),
      (0x10000000, 0xF000009F, 0x1000009F), (0xF0000000, 0, 0xF0000000), (0x0000001F, 0xF0000000, 0xF000001F),
      (0xFFFFFFFF, 0, 0xFFFFFFFF), (0xFFFFFEFE, 0x00000100, 0xFFFFFFFE), (0x00400000, 1, 0x00400001),
      (1, 0, 1), (0, 0x12345678, 0x12345678)].all
      (fun r => aggregate defaultParams r.1 r.2.1 == r.2.2) = true := by decide

/-- V8: a reserved header. -/
theorem test_reserved_header :
    answers (stepOn State.reset 0xB0000000 0 0 0)
      (fun t => t.vfp == State.reset.vfp && responds t 3 0 0 && t.position == 1) = true := by decide

/-- R22: the worked example (default parameters). -/
theorem test_fpsid : State.reset.vfp.fpsid = 0x00020111 := by decide

/-- V9, the status words and a core register. -/
theorem test_reset :
    answers (step { withCore [(0, 0x12345678)] (withStatus 0xF000009F 0xC0000000) with inputs := [.reset] })
      (fun t => t.vfp == State.reset.vfp && readCore t 0 == 0x12345678) = true := by decide

/-- R214: nothing left to take ends the run. -/
theorem test_end_of_run : (match step State.reset with | .refused .noCommand => true | _ => false) = true := by decide

/-- A word placed by withFetchWord runs as the first instruction after reset. -/
theorem test_withFetchWord :
    answers (step (State.reset.withFetchWord 64 (0x3F800000 * 2 ^ 32 + 0x88000500)))
      (fun t => readSlot t 5 == 0x3F800000) = true := by decide

/-! Witnesses: each meets all the hypotheses of one statement, clause by clause. -/

/-- Exec on these operands answers a next state. -/
def runs (i : Instr) (s : State) : Prop := ∃ t, exec i s = .next t

/-- The header clauses of the statements RdsReturnsTheSlot to CpyDoubleCopiesBothSlots and of RaiseCommitsTheAggregation:
each row's match, alone and with every other bit set, meets its hypothesis. -/
theorem witness_header_clauses :
    [0x00000000#32, 0x10000000#32, 0x20000000#32, 0x30000000#32, 0x40000000#32, 0x50000000#32, 0x58000000#32,
      0x60000000#32, 0x68000000#32, 0x70000000#32, 0x78000000#32, 0x80000000#32, 0x88000000#32, 0x90000000#32,
      0x98000000#32, 0xA0000000#32].all
      (fun m => (m ||| 0x00FFFFFF#32) &&& 0xFF000000#32 == m && m &&& 0xFF000000#32 == m) = true := by decide

/-- The out-of-range clauses of the statements RdsReturnsTheSlot to CpyDoubleCopiesBothSlots begin at the first index past
the range, and CPY's at either operand. -/
theorem witness_range_clauses :
    (32 ≤ 32) ∧ (16 ≤ 16) ∧ (32 ≤ 32 ∨ 32 ≤ 31) ∧ (32 ≤ 31 ∨ 32 ≤ 32) ∧ (16 ≤ 16 ∨ 16 ≤ 15) ∧
      (16 ≤ 15 ∨ 16 ≤ 16) := by decide

theorem witness_WrsWritesTheSlot : runs (.wrs (31 : Fin 32) 0x7FC00001) State.reset := ⟨_, rfl⟩

theorem witness_RegisterFileLaws :
    runs (.wrs (31 : Fin 32) 1) State.reset ∧ runs (.wrd (15 : Fin 16) (2#32 ++ 1#32)) State.reset ∧
    (∃ t u, exec (.wrs (2 * (15 : Fin 16).val) 1) State.reset = .next t ∧
      exec (.wrs (2 * (15 : Fin 16).val + 1) 2) t = .next u) ∧
    (∃ t u, exec (.wrs (2 * (0 : Fin 16).val + 1) 2) State.reset = .next t ∧
      exec (.wrs (2 * (0 : Fin 16).val) 1) t = .next u) ∧
    ((0 : Fin 32) ≠ 31) ∧ ((29 : Fin 32).val ≠ 2 * 15 ∧ (29 : Fin 32).val ≠ 2 * 15 + 1) ∧
    runs (.rds 31) State.reset ∧ runs (.rdd 15) State.reset ∧
    runs (.wrs 32 1) State.reset ∧ badIndex (.wrs 32 1) = true :=
  ⟨⟨_, rfl⟩, ⟨_, rfl⟩, ⟨_, _, rfl, rfl⟩, ⟨_, _, rfl, rfl⟩, by decide, by decide, ⟨_, rfl⟩, ⟨_, rfl⟩, ⟨_, rfl⟩,
    by decide⟩

theorem witness_MsrRoutesBySelector : (0 ≠ 1 ∧ 0 ≠ 8) ∧ (255 ≠ 1 ∧ 255 ≠ 8) := by decide

/-- Two different core registers: MovdpToCoreSplitsTheDouble and MovdsToCoreCopiesTheSlotPair. -/
theorem witness_different_core_registers : ((0 : Fin 16) ≠ 15) ∧ ((14 : Fin 16) ≠ 15) := by decide

theorem witness_PairedAndSplitFormsAgree :
    ((2 : Fin 16) ≠ 3) ∧
    (∃ t u, exec (.movdpC 15 2 2) State.reset = .next t ∧ exec (.movdsC 15 2 2) State.reset = .next u) ∧
    (∃ t u, exec (.movdpC 16 2 2) State.reset = .next t ∧ exec (.movdsC 16 2 2) State.reset = .next u) :=
  ⟨by decide, ⟨_, _, rfl, rfl⟩, ⟨_, _, rfl, rfl⟩⟩

/-- RAISE on the committed path: a bitmask with a condition flag, one without, and the empty one. For
RaiseCommitsTheAggregation, ConditionFlagsReplace, EachConditionFlagFollowsTheBitmask, StickyBitsAccumulate,
OnlyTheSentinelIsFatal, RaiseStartsFromTheSnapshot and RaiseLaws. -/
theorem witness_raise_committed :
    ((0x80000010 : Word) ≠ State.reset.params.errorSentinel ∧ 0x80000010 &&& State.reset.params.condMask ≠ 0 ∧
      runs (.raise 0x80000010 0 0x60000001) State.reset) ∧
    ((0x00000010 : Word) ≠ State.reset.params.errorSentinel ∧ 0x00000010 &&& State.reset.params.condMask = 0 ∧
      runs (.raise 0x00000010 0 0x60000001) State.reset) ∧
    ((0 : Word) ≠ State.reset.params.errorSentinel ∧ 0 &&& State.reset.params.condMask = 0 ∧
      runs (.raise 0 0 0) State.reset) :=
  ⟨⟨by decide, by decide, _, rfl⟩, ⟨by decide, by decide, _, rfl⟩, ⟨by decide, by decide, _, rfl⟩⟩

/-- ConditionFlagsReplace: the third clause needs a committed word without any condition flag. -/
theorem witness_ConditionFlagsReplace :
    answers (exec (.raise 0x10 0 0x01) State.reset) (fun t => t.vfp.fpscr &&& t.params.condMask == 0) = true := by
  decide

theorem witness_EachConditionFlagFollowsTheBitmask :
    State.reset.params.legal = true ∧ hasCondition State.reset.params 0x10000000 = true ∧
    hasCondition State.reset.params 0x0FFFFFFF = false ∧ runs (.raise 0x10000000 0 0) State.reset ∧
    runs (.raise 0x0FFFFFFF 0 0) State.reset ∧ runs (.msr 1 0xF0000000) State.reset :=
  ⟨by decide, by decide, by decide, ⟨_, rfl⟩, ⟨_, rfl⟩, _, rfl⟩

theorem witness_StickyBitsAccumulate :
    State.reset.params.condMask.getLsbD 27 = false ∧ State.reset.params.condMask.getLsbD 0 = false ∧
    (0x08000001 : Word).getLsbD 27 = true := by decide

theorem witness_OnlyTheSentinelIsFatal :
    answers (exec (.raise State.reset.params.errorSentinel 7 0) State.reset) (responds · 2 7 0) = true := by decide

/-- RaiseStartsFromTheSnapshot: a bit of the stored FPSCR that neither the snapshot nor the bitmask has. -/
theorem witness_RaiseStartsFromTheSnapshot :
    (withStatus 0x0000001F 0).vfp.fpscr.getLsbD 4 = true ∧ (0 : Word).getLsbD 4 = false ∧
    (1 : Word).getLsbD 4 = false ∧ runs (.raise 1 0 0) (withStatus 0x0000001F 0) :=
  ⟨by decide, by decide, by decide, _, rfl⟩

/-- RaiseLaws: the idempotence clause has a second RAISE on a state with the same parameters. -/
theorem witness_RaiseLaws :
    (∃ t v, exec (.raise 0x80000010 0 0x60000001) State.reset = .next t ∧
      exec (.raise 0x80000010 1 t.vfp.fpscr) State.reset = .next v) ∧
    runs (.raise State.reset.params.errorSentinel 1 2) State.reset :=
  ⟨⟨_, _, rfl, rfl⟩, _, rfl⟩

/-- FailureChangesNothing: an index failure, the fatal failure and a reserved header. -/
theorem witness_FailureChangesNothing :
    (∃ t r, exec (.rds 32) State.reset = .next t ∧ t.response = some r ∧ r.status ≠ 0) ∧
    (∃ t r, exec (.raise State.reset.params.errorSentinel 1 2) State.reset = .next t ∧ t.response = some r ∧
      r.status ≠ 0) ∧
    (∃ t r, step (present ⟨0xB0000000, 0, 0, 0⟩ State.reset) = .next t ∧ t.response = some r ∧ r.status ≠ 0) :=
  ⟨⟨_, _, rfl, rfl, by decide⟩, ⟨_, _, rfl, rfl, by decide⟩, ⟨_, _, rfl, rfl, by decide⟩⟩

/-- IndexFailureExactlyOutOfRange: both ends of both ranges. -/
theorem witness_IndexFailureExactlyOutOfRange :
    badIndex (.rds 32) = true ∧ badIndex (.rds 31) = false ∧ badIndex (.rdd 16) = true ∧
    badIndex (.rdd 15) = false ∧ badIndex (.cpyS 31 32) = true ∧ badIndex (.cpyD 16 15) = true ∧
    badIndex (.cpyD 15 15) = false := by decide

theorem witness_ReservedHeadersAreRejected :
    decode ⟨0xB0000000, 0, 0, 0⟩ = .error .reservedOperation ∧ decode ⟨0x01000600, 0, 0, 0⟩ = .error .reservedBits ∧
    decode ⟨0x08000600, 0, 0, 0⟩ = .error .reservedVariant := by decide

/-- EveryCommandGivesOneResponse: a command for each of its cases, at the ends of the ranges. -/
theorem witness_EveryCommandGivesOneResponse :
    decode ⟨0xB0000000, 0, 0, 0⟩ = .error .reservedOperation ∧
    (decode ⟨0x20001000, 0, 0, 0⟩ = .ok (.rdd 16) ∧ badIndex (.rdd 16) = true) ∧
    (decode ⟨0x00001F00, 0, 0, 0⟩ = .ok (.rds 31) ∧ badIndex (.rds 31) = false) ∧
    (decode ⟨0x20000F00, 0, 0, 0⟩ = .ok (.rdd 15) ∧ badIndex (.rdd 15) = false) ∧
    (decode ⟨0xA0000000, 0xFFFFFEFF, 7, 0⟩ = .ok (.raise 0xFFFFFEFF 7 0) ∧
      (0xFFFFFEFF : Word) = State.reset.params.errorSentinel) ∧
    (decode ⟨0xA0000000, 0xFFFFFEFE, 7, 0⟩ = .ok (.raise 0xFFFFFEFE 7 0) ∧
      (0xFFFFFEFE : Word) ≠ State.reset.params.errorSentinel) ∧
    decode ⟨0x40000200, 1, 0, 0⟩ = .ok (.msr 2 1) := by decide

/-- PlacedWordRunsNext, HeaderSelectsTheRowItMatches and DecodedOperationsAreWellFormed: a word the decoder reads. -/
theorem witness_word_that_decodes :
    decodeTableWord 32 0x9800FF00 = some (.cpyS 255 0) ∧ decode ⟨0x9800FF00, 0, 0, 0⟩ = .ok (.cpyS 255 0) := by decide

/-- A command in front: EveryCommandGivesOneResponse, ReservedHeadersAreRejected, EveryOperationHasOneOutcome, StepRunsTheDecodedCommand, FailedCommandIsInvisibleToLaterOnes;
and the empty list. -/
theorem witness_command_in_front :
    (present ⟨0x00001F00, 0, 0, 0⟩ State.reset).inputs = .command ⟨0x00001F00, 0, 0, 0⟩ :: [] ∧
    decode ⟨0x00001F00, 0, 0, 0⟩ = .ok (.rds 31) ∧ State.reset.inputs = [] := by decide

/-- FailedCommandIsInvisibleToLaterOnes: a failing command, a writing one after it. -/
theorem witness_FailedCommandIsInvisibleToLaterOnes :
    ∃ t r u, step (present ⟨0x10002000, 1, 0, 0⟩ (present ⟨0x10001F00, 2, 0, 0⟩ State.reset)) = .next t ∧
      t.response = some r ∧ r.status ≠ 0 ∧ runSteps 1 t = .next u :=
  ⟨_, _, _, rfl, rfl, by decide, rfl⟩

theorem witness_FpexcAndFpscrGateNothing :
    ∃ t, runSteps 2 (present ⟨0x40000800, 1, 0, 0⟩ (present ⟨0xA0000000, 1, 2, 3⟩ State.reset)) = .next t := ⟨_, rfl⟩

theorem witness_FpsidIsNeverMutated :
    State.reset.vfp.fpsid = fpsidValue State.reset.params ∧
    (∃ t, step (present ⟨0x40000000, 0xDEADBEEF, 0, 0⟩ State.reset) = .next t) ∧ runs (.msr 0 1) State.reset :=
  ⟨rfl, ⟨_, rfl⟩, _, rfl⟩

/-- FpsidLayout: the parameters of the worked example. -/
theorem witness_FpsidLayout :
    defaultParams.implementer = 0x00 ∧ defaultParams.sw = 0 ∧ defaultParams.subarch = 0x02 ∧
    defaultParams.partnum = 0x01 ∧ defaultParams.variant = 0x1 ∧ defaultParams.revision = 0x1 := by decide

/-- WhoWritesWhat: each thing is changed by some operation. -/
theorem witness_WhoWritesWhat :
    answers (exec (.msr 8 1) State.reset) (fun t => t.vfp.fpexc != State.reset.vfp.fpexc) = true ∧
    answers (exec (.msr 1 1) State.reset) (fun t => t.vfp.fpscr != State.reset.vfp.fpscr) = true ∧
    answers (exec (.ldiS 0 1) State.reset) (fun t => t.vfp.slots != State.reset.vfp.slots) = true ∧
    answers (exec (.movsC 0 0) (withSlots [(0, 1)])) (fun t => t.x != State.reset.x) = true := by decide

theorem witness_CorePortIsUsedByExchangesOnly :
    (runs (.movdpV 15 0 15) State.reset ∧ writesCore (.movdpV 15 0 15) = false) ∧
    (runs (.cpyD 15 0) State.reset ∧ usesCorePort (.cpyD 15 0) = false) ∧
    (runs (.movdpC 16 0 1) State.reset ∧ badIndex (.movdpC 16 0 1) = true) :=
  ⟨⟨⟨_, rfl⟩, by decide⟩, ⟨⟨_, rfl⟩, by decide⟩, ⟨⟨_, rfl⟩, by decide⟩⟩

theorem witness_RepeatingACommandChangesNothingMore :
    (∃ t u, exec (.cpyS 0 31) State.reset = .next t ∧ exec (.cpyS 0 31) t = .next u) ∧
    drawsAValue (.cpyS 0 31) = false ∧
    (∃ t u, exec (.movdpC 0 1 1) State.reset = .next t ∧ exec (.movdpC 0 1 1) t = .next u) ∧
    drawsAValue (.movdpC 0 1 1) = true ∧ badIndex (.movdpC 0 1 1) = false :=
  ⟨⟨_, _, rfl, rfl⟩, by decide, ⟨_, _, rfl, rfl⟩, by decide, by decide⟩

/-- ResetGivesTheResetValues: two different states with a reset in front. -/
theorem witness_ResetGivesTheResetValues :
    ∃ s s' t t' : State, s.vfp ≠ s'.vfp ∧ s.params = s'.params ∧ s.inputs = [.reset] ∧ s'.inputs = [.reset] ∧
      step s = .next t ∧ step s' = .next t' :=
  ⟨{ State.reset with inputs := [.reset] }, { withStatus 1 2 with inputs := [.reset] }, _, _, by decide, rfl, rfl, rfl,
    rfl, rfl⟩

theorem witness_HeaderIsAssembledByShifts : 255 < 256 ∧ 0 < 256 := by decide

/-- UnusedFieldsAreIgnored: two commands that differ in every unused place. -/
theorem witness_UnusedFieldsAreIgnored :
    decode ⟨0x00000600, 0, 0, 0⟩ = .ok (.rds 6) ∧
    (0x00FF06FF : Word) &&& usedHeader (.rds 6) = 0x00000600 &&& usedHeader (.rds 6) := by decide

/-- DecodeOfEncode: both ends of the index field. -/
theorem witness_DecodeOfEncode : (Instr.cpyS 255 0).wf = true ∧ (Instr.cpyS 0 255).wf = true := by decide

/-- StepKeepsTheInvariant: a state that meets it and has an input to take. -/
theorem witness_StepKeepsTheInvariant :
    ∃ s t : State, s.Inv ∧ s.inputs ≠ [] ∧ step s = .next t :=
  ⟨present ⟨0x00002000, 0, 0, 0⟩ State.reset, _,
    ⟨rfl, ⟨fun _ => rfl, fun _ => rfl⟩, Nat.le_refl 0, fun _ h => nomatch h⟩, by decide, rfl⟩

end Sys2Proof.Tests
end

section
/-! PROOFS of 00_scope.md. A run takes every input: each step answers a next state, whatever its outcome (R18, R191). -/

namespace Sys2Proof.Machine

/-- Every operation answers a next state, a failing one too, and leaves the inputs and the position alone (R191). -/
theorem exec_next_keeps_inputs_position (i : Instr) (s : State) :
    ∃ t, exec i s = .next t ∧ t.inputs = s.inputs ∧ t.position = s.position := by
  rcases exec_cases i s with ⟨-, h⟩ | ⟨iw, c, -, h⟩ | ⟨-, r0, r1, u, h, -, -, hin, hpos, -, -⟩
  · exact ⟨_, h, rfl, rfl⟩
  · exact ⟨_, h.trans (fail_eq _ s), rfl, rfl⟩
  · exact ⟨_, h.trans (complete_eq r0 r1 u), hin, hpos⟩

/-- So does every command, one with a reserved header included (R183). -/
theorem runCommand_next_keeps_inputs_position (c : Command) (s : State) :
    ∃ t, runCommand c s = .next t ∧ t.inputs = s.inputs ∧ t.position = s.position := by
  unfold runCommand
  split
  next => exact ⟨_, fail_command s, rfl, rfl⟩
  next i _ => exact exec_next_keeps_inputs_position i s

/-- A step takes the first input and counts it if it is a command (R38). -/
theorem step_takes_first_input {s : State} {i : Input} {rest : List Input} (h : s.inputs = i :: rest) :
    ∃ t, step s = .next t ∧ t.inputs = rest ∧
      t.position + commandCount rest = s.position + commandCount (i :: rest) := by
  cases i with
  | command c =>
    obtain ⟨t, ht, hin, hpos⟩ := runCommand_next_keeps_inputs_position c (takeCommand rest s)
    refine ⟨t, (step_command h).trans ht, hin, ?_⟩
    rw [hpos, takeCommand_position, commandCount]
    omega
  | reset => exact ⟨_, step_reset h, rfl, rfl⟩

/-- As many steps as there are inputs take them all. -/
theorem runSteps_takes_all_inputs (l : List Input) {s : State} (h : s.inputs = l) :
    ∃ t, runSteps l.length s = .next t ∧ t.inputs = [] ∧ t.position = s.position + commandCount l := by
  induction l generalizing s with
  | nil => exact ⟨s, runSteps_zero s, h, rfl⟩
  | cons i rest ih =>
    obtain ⟨u, hu, huin, hupos⟩ := step_takes_first_input h
    obtain ⟨t, ht, htin, htpos⟩ := ih huin
    exact ⟨t, (runSteps_succ_next hu rest.length).trans ht, htin, htpos.trans hupos⟩

/-- Settles O47, by induction on the inputs; with none left the next step is refused. -/
theorem runTakesEveryInput : Obligations.RunTakesEveryInput := by
  intro s
  obtain ⟨t, ht, hin, hpos⟩ := runSteps_takes_all_inputs s.inputs rfl
  exact ⟨t, ht, hin, hpos, step_empty hin⟩

end Sys2Proof.Machine
end

section
/-! PROOFS of 10_state.md. What a command delivers and what a step leaves: FPSID, the parameters and the invariant;
who writes what; the layout of FPSID and the condition flags. -/

namespace Sys2Proof.Machine

/-! What a command delivers. -/

/-- What a command can make of the state it starts from: a failure and its record, or a completion whose writes left
the environment alone (R180, R186, R188). -/
inductive Delivered (s : State) : State → Prop
  | failed (f : Fault) :
      Delivered s { s with response := some (failureResponse f), failures := s.failures ++ [f] }
  | completed {u : State} (same : SameEnvironment s u) (r0 r1 : Word) :
      Delivered s { u with response := some ⟨0, r0, r1⟩ }

theorem runCommand_of_decode_ok {c : Command} {i : Instr} (h : decode c = .ok i) (s : State) :
    runCommand c s = exec i s := by
  simp only [runCommand, h]

/-- Every operation ends with one of the two deliveries. -/
theorem exec_delivers (i : Instr) (s : State) : ∃ t, exec i s = .next t ∧ Delivered s t := by
  rcases exec_cases i s with ⟨-, h⟩ | ⟨iw, c, -, h⟩ | ⟨-, r0, r1, u, h, same⟩
  · exact ⟨_, h, .failed .invalidRegisterIndex⟩
  · exact ⟨_, h, .failed (.fatalFloatingPointFault iw)⟩
  · exact ⟨_, h, .completed same r0 r1⟩

/-- So does every command, one with a reserved header included (R183). -/
theorem runCommand_delivers (c : Command) (s : State) : ∃ t, runCommand c s = .next t ∧ Delivered s t := by
  cases h : decode c with
  | error e => exact ⟨_, by simp only [runCommand, h, fail_eq], .failed .invalidCommand⟩
  | ok i => rw [runCommand_of_decode_ok h]; exact exec_delivers i s

/-- What an answered next state of an operation is. -/
theorem delivered_of_exec {i : Instr} {s t : State} (h : exec i s = .next t) : Delivered s t := by
  obtain ⟨t', h', hd⟩ := exec_delivers i s
  cases h'.symm.trans h
  exact hd

/-- Everything a step can answer as a next state: the reset of R210, or the delivery of the command in front. -/
theorem step_cases {s t : State} (h : step s = .next t) :
    (∃ rest, s.inputs = .reset :: rest ∧ t = resetBlock (takeReset rest s)) ∨
      ∃ c rest, s.inputs = .command c :: rest ∧ Delivered (takeCommand rest s) t := by
  match hin : s.inputs with
  | [] => cases (step_empty hin).symm.trans h
  | .reset :: rest =>
    cases (step_reset hin).symm.trans h
    exact .inl ⟨rest, rfl, rfl⟩
  | .command c :: rest =>
    obtain ⟨t', h', hd⟩ := runCommand_delivers c (takeCommand rest s)
    cases ((step_command hin).trans h').symm.trans h
    exact .inr ⟨c, rest, rfl, hd⟩

/-- No delivery touches FPSID, the parameters, the inputs or the position. -/
theorem Delivered.frame {s t : State} (h : Delivered s t) :
    t.vfp.fpsid = s.vfp.fpsid ∧ t.params = s.params ∧ t.inputs = s.inputs ∧ t.position = s.position := by
  cases h with
  | failed f => exact ⟨rfl, rfl, rfl, rfl⟩
  | completed same r0 r1 =>
    obtain ⟨hfpsid, hparams, hinputs, hposition, -, -⟩ := same
    exact ⟨hfpsid, hparams, hinputs, hposition⟩

/-! The invariant. -/

/-- A delivery establishes the invariant where the command was counted, so that there is room for one more failure. -/
theorem Delivered.inv {s t : State} (h : Delivered s t) (hfpsid : s.vfp.fpsid = fpsidValue s.params)
    (hroom : s.failures.length < s.position) : t.Inv := by
  have counted : s.position ≠ 0 := Nat.ne_zero_of_lt hroom
  cases h with
  | failed f =>
    refine ⟨hfpsid, by simp [counted], ?_, ?_⟩
    · rw [List.length_append]; exact hroom
    · rintro r ⟨⟩
      exact .inr ⟨f, List.getLast?_concat, rfl⟩
  | completed same r0 r1 =>
    obtain ⟨hid, hparams, -, hposition, -, hfailures⟩ := same
    refine ⟨?_, by simp [hposition, counted], ?_, ?_⟩
    · exact hid.trans (hfpsid.trans (congrArg fpsidValue hparams.symm))
    · simpa only [hfailures, hposition] using hroom.le
    · rintro r ⟨⟩
      exact .inl rfl

/-- A reset writes the composed FPSID and leaves what the other clauses speak of alone (log entries 10, 11). -/
theorem State.Inv.reset {s : State} (h : s.Inv) (rest : List Input) : (resetBlock (takeReset rest s)).Inv :=
  ⟨rfl, h.responded, h.failures_le, h.response_legal⟩

/-- Settles O49: a reset keeps the invariant, and a delivered command establishes it. -/
theorem stepKeepsTheInvariant : Obligations.StepKeepsTheInvariant := by
  intro s t hinv hstep
  rcases step_cases hstep with ⟨rest, -, rfl⟩ | ⟨c, rest, -, hd⟩
  · exact hinv.reset rest
  · exact hd.inv hinv.fpsid_fixed (Nat.lt_succ_of_le hinv.failures_le)

/-- Settles O50: nothing was taken and nothing answered. -/
theorem resetMeetsTheInvariant : Obligations.ResetMeetsTheInvariant where
  fpsid_fixed := rfl
  responded := ⟨fun _ => rfl, fun _ => rfl⟩
  failures_le := Nat.le_refl 0
  response_legal := fun _ h => nomatch h

/-! The condition flags (R25). -/

theorem exec_msr_fpscr (v : Word) (s : State) : exec (.msr 1 v) s = complete 0 0 (writeFpscr v s) := by
  rw [exec, execMsr, if_pos rfl]

/-- R163, replace: a bitmask with a condition flag puts its own under the mask. -/
theorem aggregate_and_condMask_of_hasCondition {p : Params} {e : Word} (h : hasCondition p e = true) (c : Word) :
    aggregate p e c &&& p.condMask = e &&& p.condMask := by
  apply BitVec.eq_of_getLsbD_eq
  intro b _
  simp only [BitVec.getLsbD_and, aggregate_getLsbD, h]
  cases p.condMask.getLsbD b <;> simp

/-- R163, keep: a bitmask without a condition flag leaves those of the snapshot. -/
theorem aggregate_and_condMask_of_not_hasCondition {p : Params} {e : Word} (h : hasCondition p e = false)
    (c : Word) : aggregate p e c &&& p.condMask = c &&& p.condMask := by
  have hnone : e &&& p.condMask = 0#32 := by simpa [hasCondition] using h
  simp [aggregate, workingValue, h, BitVec.and_or_distrib_right, hnone]

/-- For legal parameters every flag lies under the mask (R7). -/
theorem condMask_and_flag {p : Params} (hp : p.legal = true) :
    p.condMask &&& p.nFlag = p.nFlag ∧ p.condMask &&& p.zFlag = p.zFlag ∧
      p.condMask &&& p.cFlag = p.cFlag ∧ p.condMask &&& p.vFlag = p.vFlag := by
  have hmask : p.nFlag ||| p.zFlag ||| p.cFlag ||| p.vFlag = p.condMask := by
    simp only [Params.legal, Bool.and_eq_true, beq_iff_eq] at hp
    exact hp.2
  have under {f g : Word} (h : f ||| g = p.condMask) : p.condMask &&& f = f := by
    rw [← h]
    apply BitVec.eq_of_getLsbD_eq
    intro b _
    rw [BitVec.getLsbD_and, BitVec.getLsbD_or]
    cases f.getLsbD b <;> simp
  refine ⟨under (g := p.zFlag ||| p.cFlag ||| p.vFlag) ?_, under (g := p.nFlag ||| p.cFlag ||| p.vFlag) ?_,
    under (g := p.nFlag ||| p.zFlag ||| p.vFlag) ?_, under (g := p.nFlag ||| p.zFlag ||| p.cFlag) ?_⟩ <;>
    rw [← hmask] <;> ac_rfl

/-- For legal parameters the four flags of a word are read from its bits under the mask. -/
theorem flags_eq_of_and_condMask_eq {p : Params} (hp : p.legal = true) {u w : Word}
    (h : u &&& p.condMask = w &&& p.condMask) :
    nSet p u = nSet p w ∧ zSet p u = zSet p w ∧ cSet p u = cSet p w ∧ vSet p u = vSet p w := by
  have and_eq {f : Word} (hf : p.condMask &&& f = f) : u &&& f = w &&& f := by
    rw [← hf, ← BitVec.and_assoc, h, BitVec.and_assoc]
  obtain ⟨hn, hz, hc, hv⟩ := condMask_and_flag hp
  simp only [nSet, zSet, cSet, vSet, and_eq hn, and_eq hz, and_eq hc, and_eq hv, and_self]

/-- Settles O21: RAISE commits the aggregation, whose bits under the mask are the bitmask's or the snapshot's, and a
status move commits its value. -/
theorem eachConditionFlagFollowsTheBitmask : Obligations.EachConditionFlagFollowsTheBitmask := by
  intro s t e iw c v hp he
  refine ⟨fun ht => ?_, fun ht => ?_⟩
  · cases (exec_raise_commit he iw c).symm.trans ht
    exact ⟨fun h => flags_eq_of_and_condMask_eq hp (aggregate_and_condMask_of_hasCondition h c),
      fun h => flags_eq_of_and_condMask_eq hp (aggregate_and_condMask_of_not_hasCondition h c)⟩
  · cases (exec_msr_fpscr v s).symm.trans ht
    exact flags_eq_of_and_condMask_eq hp rfl

/-! FPSID (R21). -/

/-- The answer with its next state, if it is one, changed by `f`. -/
def mapNext (f : State → State) : Answer → Answer
  | .next t => .next (f t)
  | .fault r => .fault r
  | .refused r => .refused r

/-- The state with another word in FPSID's place. -/
def withFpsid (w : Word) (s : State) : State := { s with vfp := { s.vfp with fpsid := w } }

theorem withFpsid_params (w : Word) (s : State) : (withFpsid w s).params = s.params := rfl

/-- A range check does not see a change of the state that an index failure does not see. -/
theorem withSingle_mapNext (f : State → State) {s : State} (hf : indexFailed (f s) = f (indexFailed s)) (n : Nat)
    {go go' : Fin 32 → Answer} (hgo : ∀ i, go' i = mapNext f (go i)) :
    withSingle n (f s) go' = mapNext f (withSingle n s go) := by
  by_cases h : n < 32
  · simp only [withSingle, h, dite_true, hgo]
  · rw [withSingle_invalid (not_lt.mp h), withSingle_invalid (not_lt.mp h), hf, mapNext]

/-- The same for the check of a double index. -/
theorem withDouble_mapNext (f : State → State) {s : State} (hf : indexFailed (f s) = f (indexFailed s)) (n : Nat)
    {go go' : Fin 16 → Answer} (hgo : ∀ d, go' d = mapNext f (go d)) :
    withDouble n (f s) go' = mapNext f (withDouble n s go) := by
  by_cases h : n < 16
  · simp only [withDouble, h, dite_true, hgo]
  · rw [withDouble_invalid (not_lt.mp h), withDouble_invalid (not_lt.mp h), hf, mapNext]

theorem writeCorePair_withFpsid (form : ExchangeForm) (a b : Fin 16) (u v w : Word) (s : State) :
    writeCorePair form a b u v (withFpsid w s) = withFpsid w (writeCorePair form a b u v s) := by
  unfold writeCorePair
  split <;> rfl

/-- No operation reads or writes FPSID: another word in its place stays there and changes nothing else. -/
theorem exec_withFpsid (i : Instr) (w : Word) (s : State) :
    exec i (withFpsid w s) = mapNext (withFpsid w) (exec i s) := by
  have movesPair (form : ExchangeForm) (a b : Fin 16) (d : Fin 16) :
      complete 0 0 (writeCorePair form a b (readSlot (withFpsid w s) (lowSlot d))
        (readSlot (withFpsid w s) (highSlot d)) (withFpsid w s)) =
      mapNext (withFpsid w) (complete 0 0
        (writeCorePair form a b (readSlot s (lowSlot d)) (readSlot s (highSlot d)) s)) := by
    rw [writeCorePair_withFpsid]; rfl
  cases i with
  | msr sel v =>
    simp only [exec, execMsr]
    split
    · rfl
    · split <;> rfl
  | raise e iw c =>
    by_cases h : e = s.params.errorSentinel
    · subst h
      rw [exec_raise_fatal, ← withFpsid_params w s, exec_raise_fatal]
      rfl
    · rw [exec_raise_commit h, exec_raise_commit (s := withFpsid w s) h]
      rfl
  | rds n | wrs n word | movsV n t | movsC n t | ldiS n word =>
    simp only [exec, execRds, execWrs, execMovsV, execMovsC, execLdiS]
    exact withSingle_mapNext (withFpsid w) rfl n fun _ => rfl
  | rdd n | wrd n v | movdpV n a b | movdsV n a b | ldiD n word =>
    simp only [exec, execRdd, execWrd, execMovdpV, execMovdsV, execLdiD]
    exact withDouble_mapNext (withFpsid w) rfl n fun _ => rfl
  | movdpC n a b =>
    rw [exec, exec, execMovdpC, execMovdpC]
    exact withDouble_mapNext (withFpsid w) rfl n (movesPair .paired a b)
  | movdsC n a b =>
    rw [exec, exec, execMovdsC, execMovdsC]
    exact withDouble_mapNext (withFpsid w) rfl n (movesPair .split a b)
  | cpyS n m =>
    rw [exec, exec, execCpyS, execCpyS]
    exact withSingle_mapNext (withFpsid w) rfl n fun _ => withSingle_mapNext (withFpsid w) rfl m fun _ => rfl
  | cpyD n m =>
    rw [exec, exec, execCpyD, execCpyD]
    exact withDouble_mapNext (withFpsid w) rfl n fun _ => withDouble_mapNext (withFpsid w) rfl m fun _ => rfl

/-- A reset writes the composed constant, a command leaves it (R21). -/
theorem step_keeps_fpsid {s t : State} (hs : s.vfp.fpsid = fpsidValue s.params) (h : step s = .next t) :
    t.vfp.fpsid = fpsidValue s.params ∧ t.params = s.params := by
  rcases step_cases h with ⟨rest, -, rfl⟩ | ⟨c, rest, -, hd⟩
  · exact ⟨rfl, rfl⟩
  · obtain ⟨hfpsid, hparams, -, -⟩ := hd.frame
    exact ⟨hfpsid.trans hs, hparams⟩

/-- Settles O33: the constant stands at reset, a step keeps it, and exec commutes with replacing it. -/
theorem fpsidIsNeverMutated : Obligations.FpsidIsNeverMutated := by
  refine ⟨rfl, fun s t hs ht => step_keeps_fpsid hs ht, fun i s t w ht => ?_⟩
  obtain ⟨hfpsid, -⟩ := (delivered_of_exec ht).frame
  refine ⟨hfpsid, (exec_withFpsid i w s).trans ?_⟩
  rw [ht, mapNext, withFpsid]

/-! Who writes what (R33). -/

/-- The answer's next state, if it is one, has the property. -/
def AllNext (P : State → Prop) (a : Answer) : Prop := ∀ t, a = .next t → P t

theorem allNext_next {P : State → Prop} {t : State} (h : P t) : AllNext P (.next t) := by
  rintro _ ⟨⟩
  exact h

theorem allNext_withSingle {P : State → Prop} {s : State} (hfail : P (indexFailed s)) (n : Nat)
    {go : Fin 32 → Answer} (hgo : ∀ i, AllNext P (go i)) : AllNext P (withSingle n s go) := by
  rcases withSingle_cases n s go with ⟨i, -, h⟩ | ⟨-, h⟩ <;> rw [h]
  · exact hgo i
  · exact allNext_next hfail

theorem allNext_withDouble {P : State → Prop} {s : State} (hfail : P (indexFailed s)) (n : Nat)
    {go : Fin 16 → Answer} (hgo : ∀ d, AllNext P (go d)) : AllNext P (withDouble n s go) := by
  rcases withDouble_cases n s go with ⟨d, -, h⟩ | ⟨-, h⟩ <;> rw [h]
  · exact hgo d
  · exact allNext_next hfail

/-- The column "written by" of R33 for what an operation can write: between the two states each piece is unchanged or
the operation is one of its writers. -/
structure WritesOnlyItsOwn (i : Instr) (s t : State) : Prop where
  fpexc : t.vfp.fpexc = s.vfp.fpexc ∨ ∃ v, i = .msr 8 v
  fpscr : t.vfp.fpscr = s.vfp.fpscr ∨ (∃ v, i = .msr 1 v) ∨ ∃ e iw c, i = .raise e iw c
  slots : t.vfp.slots = s.vfp.slots ∨ writesSlots i = true
  core : t.x = s.x ∨ writesCore i = true

/-- Nothing was written. -/
theorem WritesOnlyItsOwn.nothing {i : Instr} {s t : State} (hvfp : t.vfp = s.vfp) (hx : t.x = s.x) :
    WritesOnlyItsOwn i s t := by
  refine ⟨.inl ?_, .inl ?_, .inl ?_, .inl hx⟩ <;> rw [hvfp]

/-- Slots were written and nothing else. -/
theorem WritesOnlyItsOwn.slotsOnly {i : Instr} {s t : State} (hi : writesSlots i = true)
    (hfpexc : t.vfp.fpexc = s.vfp.fpexc) (hfpscr : t.vfp.fpscr = s.vfp.fpscr) (hx : t.x = s.x) :
    WritesOnlyItsOwn i s t := ⟨.inl hfpexc, .inl hfpscr, .inr hi, .inl hx⟩

/-- Core registers were written and nothing else. -/
theorem WritesOnlyItsOwn.coreOnly {i : Instr} {s t : State} (hi : writesCore i = true)
    (hvfp : t.vfp = s.vfp) : WritesOnlyItsOwn i s t := by
  refine ⟨.inl ?_, .inl ?_, .inl ?_, .inr hi⟩ <;> rw [hvfp]

theorem writeCorePair_vfp (form : ExchangeForm) (a b : Fin 16) (u v : Word) (s : State) :
    (writeCorePair form a b u v s).vfp = s.vfp := by
  unfold writeCorePair
  split <;> rfl

/-- Every operation keeps to the column: a failure writes nothing, a completion what its operation is for. -/
theorem exec_writesOnlyItsOwn (i : Instr) (s : State) : AllNext (WritesOnlyItsOwn i s) (exec i s) := by
  have single {n : Nat} {go : Fin 32 → Answer} :=
    allNext_withSingle (P := WritesOnlyItsOwn i s) (s := s) (.nothing rfl rfl) n (go := go)
  have double {n : Nat} {go : Fin 16 → Answer} :=
    allNext_withDouble (P := WritesOnlyItsOwn i s) (s := s) (.nothing rfl rfl) n (go := go)
  cases i with
  | msr sel v =>
    simp only [exec, execMsr]
    split
    · next h => exact allNext_next ⟨.inl rfl, .inr (.inl ⟨v, by rw [h]⟩), .inl rfl, .inl rfl⟩
    · split
      · next h => exact allNext_next ⟨.inr ⟨v, by rw [h]⟩, .inl rfl, .inl rfl, .inl rfl⟩
      · exact allNext_next (.nothing rfl rfl)
  | raise e iw c =>
    by_cases h : e = s.params.errorSentinel
    · rw [h, exec_raise_fatal]
      exact allNext_next (.nothing rfl rfl)
    · rw [exec_raise_commit h]
      exact allNext_next ⟨.inl rfl, .inr (.inr ⟨e, iw, c, rfl⟩), .inl rfl, .inl rfl⟩
  | rds n => rw [exec, execRds]; exact single fun _ => allNext_next (.nothing rfl rfl)
  | rdd n => rw [exec, execRdd]; exact double fun _ => allNext_next (.nothing rfl rfl)
  | wrs n w | movsV n t | ldiS n w =>
    simp only [exec, execWrs, execMovsV, execLdiS]
    exact single fun _ => allNext_next (.slotsOnly rfl rfl rfl rfl)
  | wrd n v | movdpV n a b | movdsV n a b | ldiD n w =>
    simp only [exec, execWrd, execMovdpV, execMovdsV, execLdiD]
    exact double fun _ => allNext_next (.slotsOnly rfl rfl rfl rfl)
  | cpyS n m =>
    rw [exec, execCpyS]
    exact single fun _ => single fun _ => allNext_next (.slotsOnly rfl rfl rfl rfl)
  | cpyD n m =>
    rw [exec, execCpyD]
    exact double fun _ => double fun _ => allNext_next (.slotsOnly rfl rfl rfl rfl)
  | movsC n t => rw [exec, execMovsC]; exact single fun _ => allNext_next (.coreOnly rfl rfl)
  | movdpC n a b =>
    rw [exec, execMovdpC]
    exact double fun _ => allNext_next (.coreOnly rfl (writeCorePair_vfp .paired ..))
  | movdsC n a b =>
    rw [exec, execMovdsC]
    exact double fun _ => allNext_next (.coreOnly rfl (writeCorePair_vfp .split ..))

/-- Settles O35: a piece that changed has the operation among its writers. -/
theorem whoWritesWhat : Obligations.WhoWritesWhat := by
  intro i s t h
  obtain ⟨hfpsid, hparams, hinputs, hposition⟩ := (delivered_of_exec h).frame
  obtain ⟨hfpexc, hfpscr, hslots, hcore⟩ := exec_writesOnlyItsOwn i s t h
  exact ⟨hfpsid, hfpexc.resolve_left, hfpscr.resolve_left, hslots.resolve_left, hcore.resolve_left, hparams, hinputs,
    hposition⟩

/-! Reset, the layout of FPSID, and a placed word. -/

/-- Settles O38: a step on a reset is the reset of the block, which reads nothing but the parameters. -/
theorem resetGivesTheResetValues : Obligations.ResetGivesTheResetValues := by
  refine ⟨fun s rest h => step_reset h, fun s s' t t' rest rest' hp h h' ht ht' => ?_, rfl⟩
  cases (step_reset h).symm.trans ht
  cases (step_reset h').symm.trans ht'
  exact congrArg CoprocessorState.reset hp

/-- FPSID, field by field, as a natural number (R22). -/
theorem fpsidValue_toNat (p : Params) :
    (fpsidValue p).toNat = p.implementer.toNat * 2 ^ 24 + p.sw.toNat * 2 ^ 23 + p.subarch.toNat * 2 ^ 16 +
      p.partnum.toNat * 2 ^ 8 + p.variant.toNat * 2 ^ 4 + p.revision.toNat := by
  simp only [fpsidValue, append_toNat]
  omega

/-- Settles O34, by reading the fields from FPSID as a number. -/
theorem fpsidLayout : Obligations.FpsidLayout := by
  intro p
  have := p.sw.isLt
  have := p.subarch.isLt
  have := p.partnum.isLt
  have := p.variant.isLt
  have := p.revision.isLt
  have := p.implementer.isLt
  refine ⟨?_, ?_, ?_, ?_, ?_, ?_, fun hi hs ha hn hv hr => ?workedExample⟩
  case workedExample => rw [fpsidValue, hi, hs, ha, hn, hv, hr]; rfl
  all_goals
    apply BitVec.eq_of_toNat_eq
    simp only [BitVec.extractLsb'_toNat, fpsidValue_toNat, Nat.shiftRight_eq_div_pow]
    omega

theorem decode_of_decodeTableWord {nbits w : Nat} {i : Instr} (h : decodeTableWord nbits w = some i) :
    decode (commandOfTableWord nbits w) = .ok i := by
  unfold decodeTableWord at h
  split at h
  next hd => exact hd.trans (congrArg _ (Option.some.inj h))
  next => cases h

/-- Settles O40: the placed word is the command in front, and taking it leaves the inputs that stood before. -/
theorem placedWordRunsNext : Obligations.PlacedWordRunsNext := by
  intro s nbits w i h
  calc step (s.withFetchWord nbits w)
      = runCommand (commandOfTableWord nbits w) (takeCommand s.inputs (s.withFetchWord nbits w)) := step_command rfl
    _ = exec i { s with position := s.position + 1 } := runCommand_of_decode_ok (decode_of_decodeTableWord h) _

end Sys2Proof.Machine
end

section
/-! PROOFS of 20_memory.md. A step runs the decoded command; a command that completed completes again and changes
nothing; a list of inputs runs as the composition of its steps, since no operation sees the inputs that are left. -/

namespace Sys2Proof.Machine

/-- Settles O39: the step takes the command in front, and a command that decodes is executed. -/
theorem stepRunsTheDecodedCommand : Obligations.StepRunsTheDecodedCommand :=
  ⟨fun s _ rest _ hin hdec => (step_command hin).trans (runCommand_of_decode_ok hdec (takeCommand rest s)),
    fun _ => step_empty⟩

/-! Writing what already stands there changes nothing. -/

theorem writeSlot_eq_self {s : State} {i : Fin 32} {w : Word} (h : readSlot s i = w) : writeSlot i w s = s := by
  subst h
  simp [writeSlot, readSlot]

theorem writeCore_eq_self {s : State} {t : Fin 16} {w : Word} (h : readCore s t = w) : writeCore t w s = s := by
  subst h
  simp [writeCore, readCore]

theorem writePair_eq_self {s : State} {d : Fin 16} {lo hi : Word} (hlo : readSlot s (lowSlot d) = lo)
    (hhi : readSlot s (highSlot d) = hi) : writePair d lo hi s = s := by
  rw [writePair, writeSlot_eq_self hlo, writeSlot_eq_self hhi]

theorem writeCorePair_of_ne {a b : Fin 16} (hne : a ≠ b) (form : ExchangeForm) (u v : Word) (s : State) :
    writeCorePair form a b u v s = writeCore b v (writeCore a u s) := if_neg hne

theorem writeCorePair_eq_self {s : State} {a b : Fin 16} {u v : Word} (hne : a ≠ b) (ha : readCore s a = u)
    (hb : readCore s b = v) (form : ExchangeForm) : writeCorePair form a b u v s = s := by
  rw [writeCorePair_of_ne hne, writeCore_eq_self ha, writeCore_eq_self hb]

/-- A double exchange that names one core register twice draws once (R121, log entry 5). -/
theorem writeCorePair_same_draws (form : ExchangeForm) (a : Fin 16) (u v : Word) (s : State) :
    (writeCorePair form a a u v s).draws = s.draws + 1 := by
  simp [writeCorePair]

/-! What is read after another piece was written. -/

@[simp] theorem readCore_writeSlot (i : Fin 32) (w : Word) (s : State) (t : Fin 16) :
    readCore (writeSlot i w s) t = readCore s t := rfl

@[simp] theorem readCore_writePair (d : Fin 16) (lo hi : Word) (s : State) (t : Fin 16) :
    readCore (writePair d lo hi s) t = readCore s t := rfl

@[simp] theorem readSlot_writeCore (t : Fin 16) (w : Word) (s : State) (i : Fin 32) :
    readSlot (writeCore t w s) i = readSlot s i := rfl

@[simp] theorem readSlot_writeCorePair (form : ExchangeForm) (a b : Fin 16) (u v : Word) (s : State) (i : Fin 32) :
    readSlot (writeCorePair form a b u v s) i = readSlot s i := by
  simp [readSlot]

theorem readCore_writeCorePair_low {a b : Fin 16} (hne : a ≠ b) (form : ExchangeForm) (u v : Word) (s : State) :
    readCore (writeCorePair form a b u v s) a = u := by
  rw [writeCorePair_of_ne hne, readCore_writeCore_ne hne.symm, readCore_writeCore_self]

theorem readCore_writeCorePair_high {a b : Fin 16} (hne : a ≠ b) (form : ExchangeForm) (u v : Word) (s : State) :
    readCore (writeCorePair form a b u v s) b = v := by
  rw [writeCorePair_of_ne hne, readCore_writeCore_self]

/-- The source of a copy still holds what was copied, onto itself too (R131). -/
@[simp] theorem readSlot_writeSlot_copy (i j : Fin 32) (s : State) :
    readSlot (writeSlot i (readSlot s j) s) j = readSlot s j := by
  by_cases h : i = j
  · rw [h, readSlot_writeSlot_self]
  · exact readSlot_writeSlot_ne h _ s

/-- So do the two slots of a double copy's source (R132). -/
@[simp] theorem readSlot_writePair_copy (d m : Fin 16) (s : State) :
    readSlot (writePair d (readSlot s (lowSlot m)) (readSlot s (highSlot m)) s) (lowSlot m) = readSlot s (lowSlot m) ∧
    readSlot (writePair d (readSlot s (lowSlot m)) (readSlot s (highSlot m)) s) (highSlot m) =
      readSlot s (highSlot m) := by
  by_cases h : d = m
  · rw [h]; exact ⟨readSlot_writePair_low m _ _ s, readSlot_writePair_high m _ _ s⟩
  · have hlow : lowSlot d ≠ lowSlot m := by simp only [lowSlot, ne_eq, Fin.mk.injEq]; omega
    have hhigh : highSlot d ≠ highSlot m := by simp only [highSlot, ne_eq, Fin.mk.injEq]; omega
    exact ⟨readSlot_writePair_ne hlow (lowSlot_ne_highSlot m d).symm _ _ s,
      readSlot_writePair_ne (lowSlot_ne_highSlot d m) hhigh _ _ s⟩

/-! Repeating a command (R58). -/

/-- The state with another response on its port. -/
def respond (r : Option Response) (s : State) : State := { s with response := r }

@[simp] theorem readSlot_respond (r : Option Response) (s : State) (i : Fin 32) :
    readSlot (respond r s) i = readSlot s i := rfl

@[simp] theorem readCore_respond (r : Option Response) (s : State) (t : Fin 16) :
    readCore (respond r s) t = readCore s t := rfl

/-- An operation whose writes change nothing the second time, and whose results are the same then, completes again
without any change. -/
theorem exec_again_of_complete {i : Instr} {r0 r1 : State → Word} {write : State → State}
    (hexec : ∀ s, exec i s = complete (r0 s) (r1 s) (write s))
    (hwrite : ∀ r s, write (respond r (write s)) = respond r (write s))
    {s t : State} (h : exec i s = .next t)
    (hr0 : ∀ r s, r0 (respond r (write s)) = r0 s := by intros; rfl)
    (hr1 : ∀ r s, r1 (respond r (write s)) = r1 s := by intros; rfl) : exec i t = .next t := by
  have ht : t = respond (some ⟨0, r0 s, r1 s⟩) (write s) := by
    cases (hexec s).symm.trans h
    rfl
  rw [ht, hexec, hwrite, hr0, hr1]
  rfl

theorem single_of_valid {n : Nat} (h : decide (31 < n) = false) : ∃ i : Fin 32, n = i :=
  ⟨⟨n, Nat.lt_succ_of_le (not_lt.mp (of_decide_eq_false h))⟩, rfl⟩

theorem double_of_valid {n : Nat} (h : decide (15 < n) = false) : ∃ d : Fin 16, n = d :=
  ⟨⟨n, Nat.lt_succ_of_le (not_lt.mp (of_decide_eq_false h))⟩, rfl⟩

/-- The writes of a double exchange to the core (R125, R127). -/
def exchangeToCore (form : ExchangeForm) (d a b : Fin 16) (s : State) : State :=
  writeCorePair form a b (readSlot s (lowSlot d)) (readSlot s (highSlot d)) s

/-- Between two registers, the second exchange finds both holding their slot's word. -/
theorem exchangeToCore_again {a b : Fin 16} (hne : a ≠ b) (form : ExchangeForm) (d : Fin 16) (r : Option Response)
    (s : State) :
    exchangeToCore form d a b (respond r (exchangeToCore form d a b s)) =
      respond r (exchangeToCore form d a b s) := by
  apply writeCorePair_eq_self hne
  · simp [exchangeToCore, readCore_writeCorePair_low hne]
  · simp [exchangeToCore, readCore_writeCorePair_high hne]

/-- An operation fails in every state with the same parameters, or its indices are valid and it raises no sentinel. -/
theorem exec_fails_or_valid (i : Instr) (p : Params) :
    (∃ f, ∀ s, s.params = p → exec i s = fail f s) ∨
      (badIndex i = false ∧ ∀ iw c, i ≠ .raise p.errorSentinel iw c) := by
  by_cases hfatal : ∃ iw c, i = .raise p.errorSentinel iw c
  · obtain ⟨iw, c, rfl⟩ := hfatal
    refine .inl ⟨.fatalFloatingPointFault iw, fun s hs => ?_⟩
    rw [← hs, exec_raise_fatal]
  · have hne : ∀ iw c, i ≠ .raise p.errorSentinel iw c := fun iw c h => hfatal ⟨iw, c, h⟩
    cases hbad : badIndex i with
    | false => exact .inr ⟨rfl, hne⟩
    | true =>
      refine .inl ⟨.invalidRegisterIndex, fun s hs => ?_⟩
      rcases exec_cases i s with ⟨-, h⟩ | ⟨iw, c, h, -⟩ | ⟨h, -⟩
      · exact h
      · exact absurd (hs ▸ h) (hne iw c)
      · rw [hbad] at h; cases h

/-- A command that completes and draws nothing finds, the second time, everything it writes already written: the
whole state is left as it is. -/
theorem exec_again {i : Instr} {s t : State} (hvalid : badIndex i = false)
    (hne : ∀ iw c, i ≠ .raise s.params.errorSentinel iw c) (hdraw : drawsAValue i = false)
    (h : exec i s = .next t) : exec i t = .next t := by
  cases i with
  | rds n =>
    obtain ⟨j, rfl⟩ := single_of_valid hvalid
    exact exec_again_of_complete (exec_rds j) (fun _ _ => rfl) h
  | wrs n w =>
    obtain ⟨j, rfl⟩ := single_of_valid hvalid
    exact exec_again_of_complete (exec_wrs j w) (fun _ _ => writeSlot_eq_self (by simp)) h
  | rdd n =>
    obtain ⟨d, rfl⟩ := double_of_valid hvalid
    exact exec_again_of_complete (exec_rdd d) (fun _ _ => rfl) h
  | wrd n v =>
    obtain ⟨d, rfl⟩ := double_of_valid hvalid
    exact exec_again_of_complete (exec_wrd d v) (fun _ _ => writePair_eq_self (by simp) (by simp)) h
  | msr sel v =>
    simp only [exec, execMsr] at h ⊢
    split_ifs at h ⊢ <;> cases h <;> rfl
  | movsV n c =>
    obtain ⟨j, rfl⟩ := single_of_valid hvalid
    exact exec_again_of_complete (exec_movsV j c) (fun _ _ => writeSlot_eq_self (by simp)) h
  | movsC n c =>
    obtain ⟨j, rfl⟩ := single_of_valid hvalid
    exact exec_again_of_complete (exec_movsC j c) (fun _ _ => writeCore_eq_self (by simp)) h
  | movdpV n a b =>
    obtain ⟨d, rfl⟩ := double_of_valid hvalid
    exact exec_again_of_complete (exec_movdpV d a b) (fun _ _ => writePair_eq_self (by simp) (by simp)) h
  | movdpC n a b =>
    obtain ⟨d, rfl⟩ := double_of_valid hvalid
    exact exec_again_of_complete (exec_movdpC d a b) (exchangeToCore_again (of_decide_eq_false hdraw) .paired d) h
  | movdsV n a b =>
    obtain ⟨d, rfl⟩ := double_of_valid hvalid
    exact exec_again_of_complete (exec_movdsV d a b) (fun _ _ => writePair_eq_self (by simp) (by simp)) h
  | movdsC n a b =>
    obtain ⟨d, rfl⟩ := double_of_valid hvalid
    exact exec_again_of_complete (exec_movdsC d a b) (exchangeToCore_again (of_decide_eq_false hdraw) .split d) h
  | ldiD n w =>
    obtain ⟨d, rfl⟩ := double_of_valid hvalid
    exact exec_again_of_complete (exec_ldiD d w) (fun _ _ => writePair_eq_self (by simp) (by simp)) h
  | ldiS n w =>
    obtain ⟨j, rfl⟩ := single_of_valid hvalid
    exact exec_again_of_complete (exec_ldiS j w) (fun _ _ => writeSlot_eq_self (by simp)) h
  | cpyD n m =>
    obtain ⟨hn, hm⟩ := Bool.or_eq_false_iff.mp hvalid
    obtain ⟨d, rfl⟩ := double_of_valid hn
    obtain ⟨e, rfl⟩ := double_of_valid hm
    exact exec_again_of_complete (exec_cpyD d e) (fun _ _ => writePair_eq_self (by simp) (by simp)) h
  | cpyS n m =>
    obtain ⟨hn, hm⟩ := Bool.or_eq_false_iff.mp hvalid
    obtain ⟨j, rfl⟩ := single_of_valid hn
    obtain ⟨k, rfl⟩ := single_of_valid hm
    exact exec_again_of_complete (exec_cpyS j k) (fun _ _ => writeSlot_eq_self (by simp)) h
  | raise e iw c =>
    have he : e ≠ s.params.errorSentinel := fun he => hne iw c (by rw [he])
    cases (exec_raise_commit he iw c).symm.trans h
    exact exec_raise_commit (by exact he) iw c

/-- A command that draws leaves the block as it is and draws once (R121). -/
theorem exec_draws {i : Instr} {s t : State} (hvalid : badIndex i = false) (hdraw : drawsAValue i = true)
    (h : exec i s = .next t) : t.vfp = s.vfp ∧ t.draws = s.draws + 1 := by
  cases i with
  | movdpC n a b =>
    obtain ⟨d, rfl⟩ := double_of_valid hvalid
    cases of_decide_eq_true hdraw
    cases (exec_movdpC d a a s).symm.trans h
    exact ⟨writeCorePair_vfp .., writeCorePair_same_draws ..⟩
  | movdsC n a b =>
    obtain ⟨d, rfl⟩ := double_of_valid hvalid
    cases of_decide_eq_true hdraw
    cases (exec_movdsC d a a s).symm.trans h
    exact ⟨writeCorePair_vfp .., writeCorePair_same_draws ..⟩
  | _ => cases hdraw

/-- Settles O37: a failing command fails again and writes nothing, one that draws writes core registers only, and any
other leaves the whole state as it is. -/
theorem repeatingACommandChangesNothingMore : Obligations.RepeatingACommandChangesNothingMore := by
  intro i s t u ht hu
  obtain ⟨-, hparams, -, -⟩ := (delivered_of_exec ht).frame
  have hdraws (hdraw : drawsAValue i = true) (hvalid : badIndex i = false) := exec_draws hvalid hdraw hu
  rcases exec_fails_or_valid i s.params with ⟨f, hfail⟩ | ⟨hvalid, hne⟩
  · cases (hfail t hparams).symm.trans hu
    exact ⟨rfl, fun _ => ⟨rfl, rfl⟩, fun hdraw hvalid => (hdraws hdraw hvalid).2⟩
  · cases hdraw : drawsAValue i with
    | true => exact ⟨(hdraws hdraw hvalid).1, nofun, fun _ _ => (hdraws hdraw hvalid).2⟩
    | false =>
      cases (exec_again hvalid hne hdraw ht).symm.trans hu
      exact ⟨rfl, fun _ => ⟨rfl, rfl⟩, nofun⟩

/-! The inputs that are left (R60). -/

/-- A change of the state that no operation sees: what an operation reads is the same after it, and it commutes with
every write and every delivery. -/
structure Unseen (f : State → State) : Prop where
  params : ∀ s, (f s).params = s.params
  readSlot : ∀ s i, readSlot (f s) i = readSlot s i
  readCore : ∀ s t, readCore (f s) t = readCore s t
  writeSlot : ∀ i w s, writeSlot i w (f s) = f (writeSlot i w s)
  writeFpscr : ∀ w s, writeFpscr w (f s) = f (writeFpscr w s)
  writeFpexc : ∀ w s, writeFpexc w (f s) = f (writeFpexc w s)
  writeCore : ∀ t w s, writeCore t w (f s) = f (writeCore t w s)
  writeCorePair : ∀ form a b u v s, writeCorePair form a b u v (f s) = f (writeCorePair form a b u v s)
  complete : ∀ r0 r1 s, complete r0 r1 (f s) = mapNext f (complete r0 r1 s)
  fail : ∀ e s, fail e (f s) = mapNext f (fail e s)

section
variable {f : State → State} (hf : Unseen f)
include hf

theorem Unseen.indexFailed (s : State) : indexFailed (f s) = f (indexFailed s) :=
  Host.Outcome.next.inj (hf.fail .invalidRegisterIndex s)

theorem Unseen.writePair (d : Fin 16) (lo hi : Word) (s : State) :
    writePair d lo hi (f s) = f (writePair d lo hi s) := by
  simp only [Machine.writePair, hf.writeSlot]

/-- Every operation commutes with a change that it does not see. -/
theorem Unseen.exec (i : Instr) (s : State) : exec i (f s) = mapNext f (exec i s) := by
  have single {n : Nat} {go go' : Fin 32 → Answer} :=
    withSingle_mapNext f (hf.indexFailed s) n (go := go) (go' := go')
  have double {n : Nat} {go go' : Fin 16 → Answer} :=
    withDouble_mapNext f (hf.indexFailed s) n (go := go) (go' := go')
  cases i with
  | msr sel v =>
    simp only [Machine.exec, execMsr, hf.writeFpscr, hf.writeFpexc, hf.complete]
    split_ifs <;> rfl
  | raise e iw c =>
    simp only [Machine.exec, execRaise, hf.params, hf.writeFpscr, hf.complete, hf.fail]
    split <;> rfl
  | rds n | wrs n w | movsV n t | movsC n t | ldiS n w =>
    simp only [Machine.exec, execRds, execWrs, execMovsV, execMovsC, execLdiS]
    exact single fun _ => by simp only [hf.readSlot, hf.readCore, hf.writeSlot, hf.writeCore, hf.complete]
  | rdd n | wrd n v | movdpV n a b | movdpC n a b | movdsV n a b | movdsC n a b | ldiD n w =>
    simp only [Machine.exec, execRdd, execWrd, execMovdpV, execMovdpC, execMovdsV, execMovdsC, execLdiD, readDouble,
      writeDouble]
    exact double fun _ => by
      simp only [hf.readSlot, hf.readCore, hf.writePair, hf.writeCorePair, hf.complete]
  | cpyS n m =>
    rw [Machine.exec, Machine.exec, execCpyS, execCpyS]
    exact single fun _ => single fun _ => by simp only [hf.readSlot, hf.writeSlot, hf.complete]
  | cpyD n m =>
    rw [Machine.exec, Machine.exec, execCpyD, execCpyD]
    exact double fun _ => double fun _ => by simp only [hf.readSlot, hf.writePair, hf.complete]

theorem Unseen.runCommand (c : Command) (s : State) : runCommand c (f s) = mapNext f (runCommand c s) := by
  cases h : decode c with
  | error e => simp only [Machine.runCommand, h, hf.fail]
  | ok i => rw [runCommand_of_decode_ok h, runCommand_of_decode_ok h, hf.exec]

end

/-- The state with more inputs behind its own. -/
def appendInputs (later : List Input) (s : State) : State := { s with inputs := s.inputs ++ later }

theorem unseen_appendInputs (later : List Input) : Unseen (appendInputs later) where
  params _ := rfl
  readSlot _ _ := rfl
  readCore _ _ := rfl
  writeSlot _ _ _ := rfl
  writeFpscr _ _ := rfl
  writeFpexc _ _ := rfl
  writeCore _ _ _ := rfl
  writeCorePair _ _ _ _ _ _ := by unfold writeCorePair; split <;> rfl
  complete _ _ _ := rfl
  fail _ _ := rfl

theorem appendInputs_inputs {s : State} {i : Input} {rest : List Input} (h : s.inputs = i :: rest)
    (later : List Input) : (appendInputs later s).inputs = i :: (rest ++ later) := by
  rw [appendInputs, h, List.cons_append]

/-- A step takes the first input and leaves what stands behind the others. -/
theorem step_appendInputs {s : State} {i : Input} {rest : List Input} (h : s.inputs = i :: rest)
    (later : List Input) : step (appendInputs later s) = mapNext (appendInputs later) (step s) := by
  cases i with
  | reset => rw [step_reset h, step_reset (appendInputs_inputs h later)]; rfl
  | command c =>
    rw [step_command h, step_command (appendInputs_inputs h later), ← (unseen_appendInputs later).runCommand]
    rfl

/-- Once its own inputs are taken, the run goes on from where it would have ended without the later ones. -/
theorem runSteps_appendInputs (first later : List Input) (n : Nat) {s m : State} (h : s.inputs = first)
    (hm : runSteps first.length s = .next m) :
    runSteps (first.length + n) (appendInputs later s) = runSteps n (appendInputs later m) := by
  induction first generalizing s with
  | nil =>
    cases (runSteps_zero s).symm.trans hm
    rw [List.length_nil, Nat.zero_add]
  | cons i rest ih =>
    obtain ⟨t, ht, hin, -⟩ := step_takes_first_input h
    have hstep : step (appendInputs later s) = .next (appendInputs later t) := by
      rw [step_appendInputs h, ht, mapNext]
    have hrun : runSteps rest.length t = .next m := (runSteps_succ_next ht rest.length).symm.trans hm
    calc runSteps ((i :: rest).length + n) (appendInputs later s)
        = runSteps (rest.length + n + 1) (appendInputs later s) := by rw [List.length_cons, Nat.add_right_comm]
      _ = runSteps (rest.length + n) (appendInputs later t) := runSteps_succ_next hstep _
      _ = runSteps n (appendInputs later m) := ih hin hrun

/-- Settles O48: the first list runs to one state, and the run of both goes on from it with the later inputs. -/
theorem runIsLeftToRightComposition : Obligations.RunIsLeftToRightComposition := by
  intro s first later
  obtain ⟨m, hm, hin, -⟩ := runSteps_takes_all_inputs first (s := { s with inputs := first }) rfl
  have hlater : appendInputs later m = { m with inputs := later } := by rw [appendInputs, hin, List.nil_append]
  have hrun (n : Nat) : runSteps (first.length + n) { s with inputs := first ++ later } =
      runSteps n { m with inputs := later } :=
    hlater ▸ runSteps_appendInputs first later n rfl hm
  refine ⟨m, ?_, hrun 0, hrun⟩
  rw [hm, ← hin]

end Sys2Proof.Machine
end

section
/-! PROOFS of 30_encoding.md. A header's top byte selects the row and the row says which fields are read: so decoding
is undone by encoding, and what no field of the row holds has no effect (R73, R79). What each row answers (R74). -/

namespace Sys2Proof

open Sys2Proof.Machine

/-! The rows of the operation table (R73, R79). -/

/-- The operation code of the operation's row (R76). -/
def opOf : Instr → BitVec 4
  | .rds .. => 0x0
  | .wrs .. => 0x1
  | .rdd .. => 0x2
  | .wrd .. => 0x3
  | .msr .. => 0x4
  | .movsV .. | .movsC .. => 0x5
  | .movdpV .. | .movdpC .. => 0x6
  | .movdsV .. | .movdsC .. => 0x7
  | .ldiD .. | .ldiS .. => 0x8
  | .cpyD .. | .cpyS .. => 0x9
  | .raise .. => 0xA

/-- The variant flag of the operation's row (R77). -/
def variantOf : Instr → Bool
  | .movsC .. | .movdpC .. | .movdsC .. | .ldiS .. | .cpyS .. => true
  | .rds .. | .wrs .. | .rdd .. | .wrd .. | .msr .. | .movsV .. | .movdpV .. | .movdsV .. | .ldiD .. | .cpyD ..
  | .raise .. => false

/-- The operation of `i`'s row with its operands read from the command (R73). -/
def operandsOf (c : Command) : Instr → Instr
  | .rds _ => .rds (vdField c.hdr)
  | .wrs _ _ => .wrs (vdField c.hdr) c.d0
  | .rdd _ => .rdd (vdField c.hdr)
  | .wrd _ _ => .wrd (vdField c.hdr) (c.d1 ++ c.d0)
  | .msr _ _ => .msr (vdField c.hdr) c.d0
  | .movsV _ _ => .movsV (vdField c.hdr) (tField c.hdr)
  | .movsC _ _ => .movsC (vdField c.hdr) (tField c.hdr)
  | .movdpV _ _ _ => .movdpV (vdField c.hdr) (tField c.hdr) (t2Field c.hdr)
  | .movdpC _ _ _ => .movdpC (vdField c.hdr) (tField c.hdr) (t2Field c.hdr)
  | .movdsV _ _ _ => .movdsV (vdField c.hdr) (tField c.hdr) (t2Field c.hdr)
  | .movdsC _ _ _ => .movdsC (vdField c.hdr) (tField c.hdr) (t2Field c.hdr)
  | .ldiD _ _ => .ldiD (vdField c.hdr) c.d0
  | .ldiS _ _ => .ldiS (vdField c.hdr) c.d0
  | .cpyD _ _ => .cpyD (vdField c.hdr) (vmField c.hdr)
  | .cpyS _ _ => .cpyS (vdField c.hdr) (vmField c.hdr)
  | .raise _ _ _ => .raise c.d0 c.d1 c.d2

/-- A row's match holds its operation code and variant flag and nothing else. -/
theorem matchOf_eq_packHeader (i : Instr) :
    matchOf i = packHeader (opOf i) (variantOf i) 0 0 0 0 := by
  cases i <;> simp only [matchOf, opOf, variantOf] <;> decide

/-- A header matches a row exactly when its operation code and variant flag are the row's and `rsv` is 000. -/
theorem match_iff_fields (h : Word) (i : Instr) : h &&& 0xFF000000#32 = matchOf i ↔
    opField h = (opOf i).toNat ∧ fField h = variantOf i ∧ rsvField h = 0 := by
  have hop : opField (matchOf i) = (opOf i).toNat := by rw [matchOf_eq_packHeader, opField_packHeader]
  have hf : fField (matchOf i) = variantOf i := by rw [matchOf_eq_packHeader, fField_packHeader]
  have hrsv : rsvField (matchOf i) = 0 := by rw [matchOf_eq_packHeader, rsvField_packHeader]
  have hmask : matchOf i &&& 0xFF000000#32 = matchOf i := by
    rw [matchOf_eq_packHeader, Laws.RowMatch.packHeader_match]
  rw [← hop, ← hf, ← hrsv]
  exact ⟨fields_of_match, fun ⟨ho, hf, hr⟩ => match_of_fields hmask ho hf hr⟩

/-- A header that matches a row decodes to it. -/
theorem decode_of_match {c : Command} {i : Instr} (h : c.hdr &&& 0xFF000000#32 = matchOf i) :
    decode c = .ok (operandsOf c i) := by
  obtain ⟨hop, hf, hrsv⟩ := (match_iff_fields c.hdr i).mp h
  rw [decode, hop, hf, hrsv]
  cases i <;> rfl

/-- A header that decodes matches the row of its operation, and the operands are those of the command. -/
theorem match_of_decode {c : Command} {i : Instr} (h : decode c = .ok i) :
    c.hdr &&& 0xFF000000#32 = matchOf i ∧ operandsOf c i = i := by
  unfold decode at h
  split at h
  · cases h
  · next hrsv =>
    split at h <;> cases h
    all_goals exact ⟨(match_iff_fields ..).mpr ⟨‹_›, ‹_›, not_not.mp hrsv⟩, rfl⟩

/-- Every encoded header matches its row. -/
theorem encode_match (i : Instr) : (encode i).hdr &&& 0xFF000000#32 = matchOf i := by
  cases i <;> exact Laws.RowMatch.packHeader_match ..

/-! Decoding what was encoded, and well-formedness (R70, R72). -/

theorem vmField_lt (h : Word) : vmField h < 256 := BitVec.isLt _

theorem vdField_lt (h : Word) : vdField h < 256 := BitVec.isLt _

/-- An index that fits its field is what the field holds. -/
theorem mod_of_fitsIndexField {n : Nat} (h : fitsIndexField n = true) : n % 256 = n :=
  Nat.mod_eq_of_lt (of_decide_eq_true h)

/-- The operands in an encoded well-formed operation are its own. -/
theorem operandsOf_encode {i : Instr} (h : i.wf = true) : operandsOf (encode i) i = i := by
  cases i with
  | raise e iw c => rfl
  | cpyD d m | cpyS d m =>
    obtain ⟨hd, hm⟩ := Bool.and_eq_true_iff.mp h
    simp only [operandsOf, encode, vdField_packHeader, vmField_packHeader, mod_of_fitsIndexField hd,
      mod_of_fitsIndexField hm]
  | wrd n v =>
    have hv : v.extractLsb' 32 32 ++ v.extractLsb' 0 32 = v := highWord_append_lowWord v
    simp only [operandsOf, encode, vdField_packHeader, mod_of_fitsIndexField h, hv]
  | _ =>
    simp only [operandsOf, encode, vdField_packHeader, tField_packHeader, t2Field_packHeader,
      mod_of_fitsIndexField h]

/-- Settles O44: the encoded header matches the row, and its operands are the operation's own. -/
theorem decodeOfEncode : Obligations.DecodeOfEncode := by
  intro i hi
  rw [decode_of_match (encode_match i), operandsOf_encode hi]

theorem operandsOf_wf (c : Command) (i : Instr) : (operandsOf c i).wf = true := by
  have hvd : fitsIndexField (vdField c.hdr) = true := decide_eq_true (vdField_lt c.hdr)
  have hvm : fitsIndexField (vmField c.hdr) = true := decide_eq_true (vmField_lt c.hdr)
  cases i with
  | raise e iw c => rfl
  | cpyD d m | cpyS d m => exact Bool.and_eq_true_iff.mpr ⟨hvd, hvm⟩
  | _ => exact hvd

/-- Settles O45: the operation is made of the command's fields. -/
theorem decodedOperationsAreWellFormed : Obligations.DecodedOperationsAreWellFormed := by
  intro c i h
  obtain ⟨-, hi⟩ := match_of_decode h
  exact hi ▸ operandsOf_wf c i

/-! The unused fields (R73). -/

/-- Two headers with the same top byte and the same fields are one. -/
theorem header_ext {h h' : Word} (htop : h &&& 0xFF000000#32 = h' &&& 0xFF000000#32)
    (hvm : vmField h = vmField h') (hvd : vdField h = vdField h') (ht2 : t2Field h = t2Field h')
    (ht : tField h = tField h') : h = h' := by
  have htop := congrArg BitVec.toNat htop
  have ht2 := congrArg Fin.val ht2
  have ht := congrArg Fin.val ht
  simp only [mask_toNat, vmField, vdField, t2Field, tField, BitVec.extractLsb'_toNat, Nat.shiftRight_eq_div_pow]
    at htop hvm hvd ht2 ht
  apply BitVec.eq_of_toNat_eq
  omega

theorem vmField_and (h m : Word) : vmField (h &&& m) = vmField h &&& vmField m := by
  simp only [vmField, BitVec.extractLsb'_and, BitVec.toNat_and]

theorem vdField_and (h m : Word) : vdField (h &&& m) = vdField h &&& vdField m := by
  simp only [vdField, BitVec.extractLsb'_and, BitVec.toNat_and]

theorem t2Field_and (h m : Word) : t2Field (h &&& m) = t2Field h &&& t2Field m := by
  apply Fin.ext
  simp [t2Field, BitVec.extractLsb'_and]

theorem tField_and (h m : Word) : tField (h &&& m) = tField h &&& tField m := by
  apply Fin.ext
  simp [tField, BitVec.extractLsb'_and]

theorem vmField_and_ones (h : Word) : vmField h &&& 255 = vmField h :=
  Nat.and_two_pow_sub_one_of_lt_two_pow (n := 8) (vmField_lt h)

theorem vdField_and_ones (h : Word) : vdField h &&& 255 = vdField h :=
  Nat.and_two_pow_sub_one_of_lt_two_pow (n := 8) (vdField_lt h)

theorem register_and_ones (t : Fin 16) : t &&& 15 = t := by
  revert t
  decide

theorem register_and_zero (t : Fin 16) : t &&& 0 = 0 := by
  revert t
  decide

/-- A header that matches a row, under a mask that keeps the top byte, is the row's header with the fields under the
mask. -/
theorem packHeader_eq_and {h m : Word} {op : BitVec 4} {f : Bool} {vm vd : Nat} {t2 t : Fin 16}
    (hm : m &&& 0xFF000000#32 = 0xFF000000#32) (hrow : h &&& 0xFF000000#32 = packHeader op f 0 0 0 0)
    (hvm : vmField h &&& vmField m = vm) (hvd : vdField h &&& vdField m = vd)
    (ht2 : t2Field h &&& t2Field m = t2) (ht : tField h &&& tField m = t) :
    packHeader op f vm vd t2 t = h &&& m := by
  rw [← vmField_and] at hvm
  rw [← vdField_and] at hvd
  apply header_ext
  · rw [Laws.RowMatch.packHeader_match, BitVec.and_assoc, hm, hrow]
  · rw [vmField_packHeader, ← hvm, Nat.mod_eq_of_lt (vmField_lt _)]
  · rw [vdField_packHeader, ← hvd, Nat.mod_eq_of_lt (vdField_lt _)]
  · rw [t2Field_packHeader, t2Field_and, ht2]
  · rw [tField_packHeader, tField_and, ht]

/-- Encoding the operands of a command gives the header bits that the row uses. -/
theorem encode_operandsOf_hdr {c : Command} {i : Instr} (h : c.hdr &&& 0xFF000000#32 = matchOf i) :
    (encode (operandsOf c i)).hdr = c.hdr &&& usedHeader i := by
  have hrow := h.trans (matchOf_eq_packHeader i)
  cases i with
  | rds | wrs | rdd | wrd | msr | ldiD | ldiS =>
    change _ = c.hdr &&& 0xFF00FF00#32
    exact packHeader_eq_and rfl hrow (Nat.and_zero _) (vdField_and_ones _) (register_and_zero _) (register_and_zero _)
  | movsV | movsC =>
    change _ = c.hdr &&& 0xFF00FF0F#32
    exact packHeader_eq_and rfl hrow (Nat.and_zero _) (vdField_and_ones _) (register_and_zero _) (register_and_ones _)
  | movdpV | movdpC | movdsV | movdsC =>
    change _ = c.hdr &&& 0xFF00FFFF#32
    exact packHeader_eq_and rfl hrow (Nat.and_zero _) (vdField_and_ones _) (register_and_ones _) (register_and_ones _)
  | cpyD | cpyS =>
    change _ = c.hdr &&& 0xFFFFFF00#32
    exact packHeader_eq_and rfl hrow (vmField_and_ones _) (vdField_and_ones _) (register_and_zero _)
      (register_and_zero _)
  | raise =>
    change _ = c.hdr &&& 0xFF000000#32
    exact packHeader_eq_and rfl hrow (Nat.and_zero _) (Nat.and_zero _) (register_and_zero _) (register_and_zero _)

/-- What of a command its row uses, the rest zero. -/
def usedPart (c : Command) (i : Instr) : Command :=
  ⟨c.hdr &&& usedHeader i, if usesD0 i then c.d0 else 0, if usesD1 i then c.d1 else 0, if usesD2 i then c.d2 else 0⟩

/-- Encoding the operands of a command gives the part of it that the row uses. -/
theorem encode_operandsOf {c : Command} {i : Instr} (h : c.hdr &&& 0xFF000000#32 = matchOf i) :
    encode (operandsOf c i) = usedPart c i := by
  rw [usedPart, ← encode_operandsOf_hdr h]
  cases i with
  | wrd n v => exact congrArg₂ (Command.mk _ · · 0) (lowWord_append c.d1 c.d0) (highWord_append c.d1 c.d0)
  | _ => rfl

theorem encode_of_decode {c : Command} {i : Instr} (h : decode c = .ok i) : encode i = usedPart c i := by
  obtain ⟨hrow, hi⟩ := match_of_decode h
  rw [← encode_operandsOf hrow, hi]

theorem usedHeader_and_mask (i : Instr) : usedHeader i &&& 0xFF000000#32 = 0xFF000000#32 := by
  cases i <;> simp only [usedHeader] <;> decide

/-- A command that agrees in what the row uses decodes to the same operation. -/
theorem decode_of_usedPart_eq {c c' : Command} {i : Instr} (h : decode c = .ok i)
    (hused : usedPart c' i = usedPart c i) : decode c' = .ok i := by
  obtain ⟨hrow, -⟩ := match_of_decode h
  have hhdr : c'.hdr &&& usedHeader i = c.hdr &&& usedHeader i := congrArg Command.hdr hused
  have hrow' : c'.hdr &&& 0xFF000000#32 = matchOf i := by
    rw [← hrow, ← usedHeader_and_mask i, ← BitVec.and_assoc, hhdr, BitVec.and_assoc]
  have hcode : encode (operandsOf c' i) = encode i := by
    rw [encode_operandsOf hrow', hused, encode_of_decode h]
  calc decode c' = .ok (operandsOf c' i) := decode_of_match hrow'
    _ = decode (encode (operandsOf c' i)) := (decodeOfEncode _ (operandsOf_wf c' i)).symm
    _ = decode (encode i) := congrArg decode hcode
    _ = .ok i := decodeOfEncode i (decodedOperationsAreWellFormed c i h)

/-- Settles O43: encoding keeps what the row uses, and decoding sees no more. -/
theorem unusedFieldsAreIgnored : Obligations.UnusedFieldsAreIgnored := by
  refine ⟨fun c i h => encode_of_decode h, fun c c' i h hhdr h0 h1 h2 => decode_of_usedPart_eq h ?_⟩
  rw [usedPart, usedPart, hhdr]
  congr 1
  · exact ite_congr rfl h0 fun _ => rfl
  · exact ite_congr rfl h1 fun _ => rfl
  · exact ite_congr rfl h2 fun _ => rfl

/-! The rows and the reserved headers (R79, R81). -/

/-- One operation of each row. -/
def rows : List Instr :=
  [.rds 0, .wrs 0 0, .rdd 0, .wrd 0 0, .msr 0 0, .movsV 0 0, .movsC 0 0, .movdpV 0 0 0, .movdpC 0 0 0,
    .movdsV 0 0 0, .movdsC 0 0 0, .ldiD 0 0, .ldiS 0 0, .cpyD 0 0, .cpyS 0 0, .raise 0 0 0]

/-- `rows` leaves out no row. -/
theorem matchOf_mem_rows (i : Instr) : matchOf i ∈ rows.map matchOf := by
  cases i <;> simp [rows, matchOf]

/-- Settles O41: the matches are those of the rows, and a header matches a row exactly when it decodes to it. -/
theorem headerSelectsTheRowItMatches : Obligations.HeaderSelectsTheRowItMatches := by
  refine ⟨fun c => ?_, fun c i h => (match_of_decode h).1, by decide⟩
  change (∃ i, decode c = .ok i) ↔ c.hdr &&& 0xFF000000#32 ∈ rows.map matchOf
  constructor
  · rintro ⟨i, hi⟩
    obtain ⟨hrow, -⟩ := match_of_decode hi
    exact hrow ▸ matchOf_mem_rows i
  · intro hmem
    obtain ⟨i, -, hi⟩ := List.mem_map.mp hmem
    exact ⟨operandsOf c i, decode_of_match hi.symm⟩

/-- An operation code and a variant flag that R81 does not reserve are some row's. -/
theorem row_of_not_reserved : ∀ op < 0xB, ∀ f : Bool, (f = true → op ∉ [0x0, 0x1, 0x2, 0x3, 0x4, 0xA]) →
    ∃ i ∈ rows, (opOf i).toNat = op ∧ variantOf i = f := by
  decide

/-- No row has a reserved operation code or variant flag (R81). -/
theorem row_not_reserved (i : Instr) : (opOf i).toNat < 0xB ∧
    (variantOf i = true → (opOf i).toNat ∉ [0x0, 0x1, 0x2, 0x3, 0x4, 0xA]) := by
  cases i <;> simp [opOf, variantOf]

/-- A header is reserved exactly when it matches no row (R81). -/
theorem decode_error_iff (c : Command) : (∃ e, decode c = .error e) ↔
    0xB ≤ opField c.hdr ∨ rsvField c.hdr ≠ 0 ∨
      (fField c.hdr = true ∧ opField c.hdr ∈ [0x0, 0x1, 0x2, 0x3, 0x4, 0xA]) := by
  constructor
  · rintro ⟨e, he⟩
    by_contra! hcon
    obtain ⟨hop, hrsv, hf⟩ := hcon
    obtain ⟨i, -, hi, hv⟩ := row_of_not_reserved _ hop _ hf
    cases (decode_of_match ((match_iff_fields c.hdr i).mpr ⟨hi.symm, hv.symm, hrsv⟩)).symm.trans he
  · intro hres
    match hdec : decode c with
    | .error e => exact ⟨e, rfl⟩
    | .ok i =>
      obtain ⟨hop, hf, hrsv⟩ := (match_iff_fields c.hdr i).mp (match_of_decode hdec).1
      rw [hop, hf, hrsv] at hres
      obtain ⟨hlt, hvariant⟩ := row_not_reserved i
      rcases hres with hge | hne | ⟨hv, hmem⟩
      · exact absurd hge (not_le.mpr hlt)
      · exact absurd rfl hne
      · exact absurd hmem (hvariant hv)

/-! A header is the or of its fields (R80). -/

/-- Below a word's lowest bit another word is added by an or. -/
theorem or_toNat {u v : Word} {a b : Nat} (k : Nat) (hu : u.toNat = a) (hv : v.toNat = b) (ha : 2 ^ k ∣ a)
    (hb : b < 2 ^ k) : (u ||| v).toNat = a + b := by
  obtain ⟨q, rfl⟩ := ha
  rw [BitVec.toNat_or, hu, hv, Nat.two_pow_add_eq_or_of_lt hb]

theorem shift_toNat {u : Word} {b : Nat} (k : Nat) (hu : u.toNat = b) (hb : b * 2 ^ k < 2 ^ 32) :
    (u <<< k).toNat = b * 2 ^ k := by
  rw [BitVec.toNat_shiftLeft, hu, Nat.shiftLeft_eq, Nat.mod_eq_of_lt hb]

/-- Settles O42: each field lies below those before it, so the or adds it to them. -/
theorem headerIsAssembledByShifts : Obligations.HeaderIsAssembledByShifts := by
  refine ⟨fun op f vm vd t2 t hvm hvd => ?_, by decide, by decide⟩
  have := op.isLt
  have := f.toNat_lt
  have := t2.isLt
  have := t.isLt
  have field {n : Nat} (hn : n < 256) : (BitVec.ofNat 32 n).toNat = n :=
    (BitVec.toNat_ofNat n 32).trans (Nat.mod_eq_of_lt (by omega))
  have hop : (op.setWidth 32 <<< 28).toNat = op.toNat * 2 ^ 28 :=
    shift_toNat 28 (BitVec.toNat_setWidth_of_le (by decide)) (by omega)
  have hf : ((BitVec.ofBool f).setWidth 32 <<< 27).toNat = f.toNat * 2 ^ 27 :=
    shift_toNat 27 ((BitVec.toNat_setWidth_of_le (by decide)).trans (BitVec.toNat_ofBool f)) (by omega)
  have hvm' := shift_toNat 16 (field hvm) (by omega)
  have hvd' := shift_toNat 8 (field hvd) (by omega)
  have ht2 := shift_toNat 4 (field (n := t2.val) (by omega)) (by omega)
  have ht := field (n := t.val) (by omega)
  apply BitVec.eq_of_toNat_eq
  rw [packHeader_toNat, Nat.mod_eq_of_lt hvm, Nat.mod_eq_of_lt hvd,
    or_toNat 4 (or_toNat 8 (or_toNat 16 (or_toNat 24 (or_toNat 28 hop hf ?_ ?_) hvm' ?_ ?_) hvd' ?_ ?_) ht2 ?_ ?_) ht]
  all_goals omega

/-- Settles O46: each word is read field by field. -/
theorem headersWrittenOutDecode : Obligations.HeadersWrittenOutDecode := by
  refine ⟨?_, ?_, ?_, ?_, ?_, ?_, ?_, ?_⟩ <;> decide

end Sys2Proof

namespace Sys2Proof.Machine

/-! The response of every command (R74, R81). -/

theorem runCommand_of_decode_error {c : Command} {e : Reject} (h : decode c = .error e) (s : State) :
    runCommand c s = .next (commandRejected s) := by
  rw [runCommand, h, fail_command]

/-- Settles O28: the three cases of R81, and the delivery of the failure to the state without the command. -/
theorem reservedHeadersAreRejected : Obligations.ReservedHeadersAreRejected := by
  refine ⟨fun c => ?_, fun s c rest e hin he => ⟨s.failures ++ [.invalidCommand], ?_⟩⟩
  · have hrsv : rsvField c.hdr ≠ 0 ↔ c.hdr.extractLsb' 24 3 ≠ 0#3 := (BitVec.toNat_inj (y := 0#3)).not
    rw [decode_error_iff, hrsv]
    rfl
  · exact (step_command hin).trans (runCommand_of_decode_error he (takeCommand rest s))

theorem exec_of_badIndex {i : Instr} (h : badIndex i = true) (s : State) : exec i s = .next (indexFailed s) := by
  rcases exec_cases i s with ⟨-, he⟩ | ⟨iw, c, rfl, -⟩ | ⟨hvalid, -⟩
  · exact he
  · cases h
  · cases h.symm.trans hvalid

/-- The operation's response says more than its status. -/
def hasResult : Instr → Bool
  | .rds .. | .rdd .. | .raise .. => true
  | .wrs .. | .wrd .. | .msr .. | .movsV .. | .movsC .. | .movdpV .. | .movdpC .. | .movdsV .. | .movdsC .. | .ldiD ..
  | .ldiS .. | .cpyD .. | .cpyS .. => false

/-- An operation without a result completes with two zeros if its indices are valid. -/
theorem exec_of_not_hasResult {i : Instr} (hi : hasResult i = false) (hvalid : badIndex i = false) (s : State) :
    ∃ u, exec i s = complete 0 0 u := by
  cases i with
  | rds | rdd | raise => cases hi
  | msr sel v =>
    simp only [exec, execMsr]
    split_ifs <;> exact ⟨_, rfl⟩
  | wrs n w => obtain ⟨j, rfl⟩ := single_of_valid hvalid; exact ⟨_, exec_wrs j w s⟩
  | movsV n t => obtain ⟨j, rfl⟩ := single_of_valid hvalid; exact ⟨_, exec_movsV j t s⟩
  | movsC n t => obtain ⟨j, rfl⟩ := single_of_valid hvalid; exact ⟨_, exec_movsC j t s⟩
  | ldiS n w => obtain ⟨j, rfl⟩ := single_of_valid hvalid; exact ⟨_, exec_ldiS j w s⟩
  | wrd n v => obtain ⟨d, rfl⟩ := double_of_valid hvalid; exact ⟨_, exec_wrd d v s⟩
  | movdpV n a b => obtain ⟨d, rfl⟩ := double_of_valid hvalid; exact ⟨_, exec_movdpV d a b s⟩
  | movdpC n a b => obtain ⟨d, rfl⟩ := double_of_valid hvalid; exact ⟨_, exec_movdpC d a b s⟩
  | movdsV n a b => obtain ⟨d, rfl⟩ := double_of_valid hvalid; exact ⟨_, exec_movdsV d a b s⟩
  | movdsC n a b => obtain ⟨d, rfl⟩ := double_of_valid hvalid; exact ⟨_, exec_movdsC d a b s⟩
  | ldiD n w => obtain ⟨d, rfl⟩ := double_of_valid hvalid; exact ⟨_, exec_ldiD d w s⟩
  | cpyS n m =>
    obtain ⟨hn, hm⟩ := Bool.or_eq_false_iff.mp hvalid
    obtain ⟨j, rfl⟩ := single_of_valid hn
    obtain ⟨k, rfl⟩ := single_of_valid hm
    exact ⟨_, exec_cpyS j k s⟩
  | cpyD n m =>
    obtain ⟨hn, hm⟩ := Bool.or_eq_false_iff.mp hvalid
    obtain ⟨d, rfl⟩ := double_of_valid hn
    obtain ⟨e, rfl⟩ := double_of_valid hm
    exact ⟨_, exec_cpyD d e s⟩

/-- Settles O30: a reserved header, a failing index, the three operations with a result, and the others. -/
theorem everyCommandGivesOneResponse : Obligations.EveryCommandGivesOneResponse := by
  intro s c rest hin
  cases hdec : decode c with
  | error e => exact ⟨_, _, (step_command hin).trans (runCommand_of_decode_error hdec _), rfl, rfl⟩
  | ok i =>
    rw [step_command hin, runCommand_of_decode_ok hdec]
    cases hbad : badIndex i with
    | true => exact ⟨_, _, exec_of_badIndex hbad _, rfl, (if_pos hbad).mpr rfl⟩
    | false =>
      simp only [hbad, Bool.false_eq_true, if_false]
      cases i with
      | rds n =>
        obtain ⟨j, rfl⟩ := single_of_valid hbad
        exact ⟨_, _, exec_rds j _, rfl, j.isLt, rfl⟩
      | rdd n =>
        obtain ⟨d, rfl⟩ := double_of_valid hbad
        exact ⟨_, _, exec_rdd d _, rfl, d.isLt, rfl⟩
      | raise e iw c =>
        by_cases he : e = s.params.errorSentinel
        · subst he
          exact ⟨_, _, exec_raise_fatal iw c (takeCommand rest s), rfl, (if_pos rfl).mpr rfl⟩
        · exact ⟨_, _, exec_raise_commit (s := takeCommand rest s) he iw c, rfl, (if_neg he).mpr rfl⟩
      | _ =>
        obtain ⟨u, hu⟩ := exec_of_not_hasResult rfl hbad (takeCommand rest s)
        exact ⟨_, _, hu, rfl, rfl⟩

/-! Who uses the core-register port (R85). -/

/-- The state with other core registers. -/
def withCore (y : Vector Word 16) (s : State) : State := { s with x := y }

theorem withCore_params (y : Vector Word 16) (s : State) : (withCore y s).params = s.params := rfl

/-- An operation that is no exchange does not see the core registers. -/
theorem exec_withCore {i : Instr} (hi : usesCorePort i = false) (y : Vector Word 16) (s : State) :
    exec i (withCore y s) = mapNext (withCore y) (exec i s) := by
  cases i with
  | movsV | movsC | movdpV | movdpC | movdsV | movdsC => cases hi
  | msr sel v =>
    simp only [exec, execMsr]
    split_ifs <;> rfl
  | raise e iw c =>
    by_cases he : e = s.params.errorSentinel
    · rw [he, exec_raise_fatal, ← withCore_params y s, exec_raise_fatal]
      rfl
    · rw [exec_raise_commit he, exec_raise_commit (s := withCore y s) he]
      rfl
  | rds n | wrs n w | ldiS n w =>
    simp only [exec, execRds, execWrs, execLdiS]
    exact withSingle_mapNext (withCore y) rfl n fun _ => rfl
  | rdd n | wrd n v | ldiD n w =>
    simp only [exec, execRdd, execWrd, execLdiD]
    exact withDouble_mapNext (withCore y) rfl n fun _ => rfl
  | cpyS n m =>
    rw [exec, exec, execCpyS, execCpyS]
    exact withSingle_mapNext (withCore y) rfl n fun _ => withSingle_mapNext (withCore y) rfl m fun _ => rfl
  | cpyD n m =>
    rw [exec, exec, execCpyD, execCpyD]
    exact withDouble_mapNext (withCore y) rfl n fun _ => withDouble_mapNext (withCore y) rfl m fun _ => rfl

/-- Settles O36: what is written follows R33's column, an operation that is no exchange commutes with replacing the core
registers, and so does an index failure. -/
theorem corePortIsUsedByExchangesOnly : Obligations.CorePortIsUsedByExchangesOnly := by
  intro i s t h
  obtain ⟨-, -, -, hcore⟩ := exec_writesOnlyItsOwn i s t h
  refine ⟨fun hi => hcore.resolve_right (by simp [hi]), fun hi y => ?_, fun hbad => ?_⟩
  · exact (exec_withCore hi y s).trans (congrArg (mapNext (withCore y)) h)
  · cases (exec_of_badIndex hbad s).symm.trans h
    exact ⟨rfl, fun y => exec_of_badIndex hbad (withCore y s)⟩

end Sys2Proof.Machine
end

section
/-! PROOFS of 40_register_file.md. The four operations RDS, WRS, RDD and WRD: what each makes of a state, and the laws
between a write and a later read, all read off one lemma per write and one per read. -/

namespace Sys2Proof.Machine

/-! What stands in the slots after a write, and what a read answers. -/

/-- WRS leaves the word in its slot and every other slot alone (R102). -/
theorem readSlot_of_exec_wrs {s t : State} {i : Fin 32} {w : Word} (h : exec (.wrs i w) s = .next t) :
    readSlot t i = w ∧ ∀ j, i ≠ j → readSlot t j = readSlot s j := by
  cases (exec_wrs i w s).symm.trans h
  exact ⟨readSlot_writeSlot_self i w s, fun j hj => readSlot_writeSlot_ne hj w s⟩

/-- WRD leaves the two words in the two slots of its register and every other slot alone (R104). -/
theorem readSlot_of_exec_wrd {s t : State} {d : Fin 16} {v : DWord} (h : exec (.wrd d v) s = .next t) :
    readSlot t (lowSlot d) = lowWord v ∧ readSlot t (highSlot d) = highWord v ∧
      ∀ j, lowSlot d ≠ j → highSlot d ≠ j → readSlot t j = readSlot s j := by
  cases (exec_wrd d v s).symm.trans h
  exact ⟨readSlot_writePair_low d _ _ s, readSlot_writePair_high d _ _ s,
    fun j hl hh => readSlot_writePair_ne hl hh _ _ s⟩

/-- RDS answers the word that stands in the slot (R101). -/
theorem exec_rds_response {t : State} {i : Fin 32} {w : Word} (h : readSlot t i = w) :
    ∃ u, exec (.rds i) t = .next u ∧ u.response = some ⟨0, w, 0⟩ :=
  ⟨_, exec_rds i t, by rw [h]⟩

/-- RDD answers the words that stand in the two slots (R103). -/
theorem exec_rdd_response {t : State} {d : Fin 16} {lo hi : Word} (hlo : readSlot t (lowSlot d) = lo)
    (hhi : readSlot t (highSlot d) = hi) : ∃ u, exec (.rdd d) t = .next u ∧ u.response = some ⟨0, lo, hi⟩ :=
  ⟨_, exec_rdd d t, by rw [hlo, hhi]⟩

/-- What WRS wrote, RDS reads. -/
theorem exec_rds_after_wrs {s t : State} {i : Fin 32} {w : Word} (h : exec (.wrs i w) s = .next t) :
    ∃ u, exec (.rds i) t = .next u ∧ u.response = some ⟨0, w, 0⟩ :=
  have ⟨hself, _⟩ := readSlot_of_exec_wrs h
  exec_rds_response hself

/-- Two writes to the slots of a double, in either order, leave both words there. -/
theorem exec_rdd_after_wrs_wrs {s t u : State} {d : Fin 16} {lo hi : Word}
    (h : (exec (.wrs (lowSlot d) lo) s = .next t ∧ exec (.wrs (highSlot d) hi) t = .next u) ∨
      (exec (.wrs (highSlot d) hi) s = .next t ∧ exec (.wrs (lowSlot d) lo) t = .next u)) :
    ∃ v, exec (.rdd d) u = .next v ∧ v.response = some ⟨0, lo, hi⟩ := by
  have hne := lowSlot_ne_highSlot d d
  rcases h with ⟨h₁, h₂⟩ | ⟨h₁, h₂⟩
  all_goals
    obtain ⟨hfirst, -⟩ := readSlot_of_exec_wrs h₁
    obtain ⟨hsecond, hkept⟩ := readSlot_of_exec_wrs h₂
  · exact exec_rdd_response ((hkept _ hne.symm).trans hfirst) hsecond
  · exact exec_rdd_response hsecond ((hkept _ hne).trans hfirst)

/-- RDS changes nothing of the block, whatever its index. -/
theorem exec_rds_keeps_vfp {s t : State} {n : Nat} (h : exec (.rds n) s = .next t) : t.vfp = s.vfp := by
  rw [exec, execRds] at h
  refine allNext_withSingle (P := fun t => t.vfp = s.vfp) rfl n (fun _ => ?_) t h
  exact allNext_next rfl

/-- Nor does RDD. -/
theorem exec_rdd_keeps_vfp {s t : State} {n : Nat} (h : exec (.rdd n) s = .next t) : t.vfp = s.vfp := by
  rw [exec, execRdd] at h
  refine allNext_withDouble (P := fun t => t.vfp = s.vfp) rfl n (fun _ => ?_) t h
  exact allNext_next rfl

/-! The four operations. -/

/-- Settles O1: the row's match, the valid index, the index failure, and the zero slots of reset. -/
theorem rdsReturnsTheSlot : Obligations.RdsReturnsTheSlot := by
  refine ⟨fun c h => decode_of_match (i := .rds 0) h, fun s reg => exec_rds reg s,
    fun s reg h => ⟨_, exec_of_badIndex (i := .rds reg) (decide_eq_true h) s⟩, fun reg => ?_⟩
  have hzero : readSlot State.reset reg = 0 := Vector.getElem_replicate reg.isLt
  rw [exec_rds, hzero, complete_eq]

/-- Settles O2: the row's match, the valid index, the index failure, and the read after the write. -/
theorem wrsWritesTheSlot : Obligations.WrsWritesTheSlot :=
  ⟨fun _ h => decode_of_match (i := .wrs 0 0) h, fun s reg w => exec_wrs reg w s,
    fun s reg w h => ⟨_, exec_of_badIndex (i := .wrs reg w) (decide_eq_true h) s⟩,
    fun _ _ _ _ h => exec_rds_after_wrs h⟩

/-- Settles O3: the row's match, the valid index, and the index failure. -/
theorem rddReturnsLowThenHigh : Obligations.RddReturnsLowThenHigh :=
  ⟨fun _ h => decode_of_match (i := .rdd 0) h, fun s d => exec_rdd d s,
    fun s d h => ⟨_, exec_of_badIndex (i := .rdd d) (decide_eq_true h) s⟩⟩

/-- Settles O4: the row's match, the two words of the value to the two slots, and the index failure. -/
theorem wrdWritesBothSlots : Obligations.WrdWritesBothSlots := by
  refine ⟨fun c h => decode_of_match (i := .wrd 0 0) h, fun s d lo hi => ?_,
    fun s d v h => ⟨_, exec_of_badIndex (i := .wrd d v) (decide_eq_true h) s⟩⟩
  rw [exec_wrd, lowWord_append, highWord_append]
  rfl

/-! The laws between them (R105). -/

/-- The status frame of the four operations: none of them is a writer of FPEXC, FPSCR or the core registers (R33). -/
theorem registerFile_keeps_status {s t : State} {i : Instr}
    (hi : (∃ r, i = .rds r) ∨ (∃ r v, i = .wrs r v) ∨ (∃ d, i = .rdd d) ∨ (∃ d w, i = .wrd d w))
    (h : exec i s = .next t) :
    t.vfp.fpsid = s.vfp.fpsid ∧ t.vfp.fpexc = s.vfp.fpexc ∧ t.vfp.fpscr = s.vfp.fpscr ∧ t.x = s.x := by
  obtain ⟨hfpsid, -⟩ := (delivered_of_exec h).frame
  obtain ⟨hfpexc, hfpscr, -, hcore⟩ := exec_writesOnlyItsOwn i s t h
  refine ⟨hfpsid, hfpexc.resolve_right ?_, hfpscr.resolve_right ?_, hcore.resolve_right ?_⟩
  all_goals rcases hi with ⟨_, rfl⟩ | ⟨_, _, rfl⟩ | ⟨_, rfl⟩ | ⟨_, _, rfl⟩ <;> simp [writesCore]

/-- Settles O5: the round trips and the two views from what stands in the slots after a write, the frames likewise. -/
theorem registerFileLaws : Obligations.RegisterFileLaws := by
  refine ⟨fun _ _ _ _ h => exec_rds_after_wrs h, fun s t d lo hi h => ?doubleSeenBack,
    fun s t u d a b h => exec_rdd_after_wrs_wrs h,
    fun s t r j v h hj => ?singleFrame,
    fun s t d j w h hl hh => ?doubleFrame,
    fun s t i hi h => ⟨registerFile_keeps_status hi h, fun hread => ?readPurity, fun hbad => ?failureFrame⟩⟩
  case doubleSeenBack =>
    obtain ⟨hlow, hhigh, -⟩ := readSlot_of_exec_wrd h
    rw [lowWord_append] at hlow
    rw [highWord_append] at hhigh
    exact ⟨exec_rdd_response hlow hhigh, exec_rds_response hlow, exec_rds_response hhigh⟩
  case singleFrame =>
    obtain ⟨-, hother⟩ := readSlot_of_exec_wrs h
    exact hother j hj.symm
  case doubleFrame =>
    obtain ⟨-, -, hother⟩ := readSlot_of_exec_wrd h
    exact hother j (Fin.ne_of_val_ne hl.symm) (Fin.ne_of_val_ne hh.symm)
  case readPurity =>
    rcases hread with ⟨_, rfl⟩ | ⟨_, rfl⟩
    · exact exec_rds_keeps_vfp h
    · exact exec_rdd_keeps_vfp h
  case failureFrame =>
    cases (exec_of_badIndex hbad s).symm.trans h
    rfl

end Sys2Proof.Machine
end

section
/-! PROOFS of 41_transfer_unit.md. The eleven mnemonics of MSR, MOVS, MOVDP, MOVDS, LDI and CPY: the state each leaves,
and what a double exchange makes of one core register named twice (R121) and of its two forms (R133). -/

namespace Sys2Proof.Machine

/-! The status move (R122). -/

theorem exec_msr_fpexc (v : Word) (s : State) : exec (.msr 8 v) s = complete 0 0 (writeFpexc v s) := by
  rw [exec, execMsr, if_neg (by decide), if_pos rfl]

/-- A selector that names no status word writes nothing and is no failure (R184). -/
theorem exec_msr_other {sel : Nat} (hfpscr : sel ≠ 1) (hfpexc : sel ≠ 8) (v : Word) (s : State) :
    exec (.msr sel v) s = complete 0 0 s := by
  rw [exec, execMsr, if_neg hfpscr, if_neg hfpexc]

/-- Settles O6: the row's match, and the three cases of the selector. -/
theorem msrRoutesBySelector : Obligations.MsrRoutesBySelector :=
  ⟨fun _ h => decode_of_match (i := .msr 0 0) h, fun s v => exec_msr_fpscr v s, fun s v => exec_msr_fpexc v s,
    fun s _ v hfpscr hfpexc => exec_msr_other hfpscr hfpexc v s⟩

/-! The single exchange (R123, R124). -/

/-- Settles O7: the row's match, the valid index, and the index failure. -/
theorem movsToCoreCopiesTheSlot : Obligations.MovsToCoreCopiesTheSlot :=
  ⟨fun _ h => decode_of_match (i := .movsC 0 0) h, fun s reg t => exec_movsC reg t s,
    fun s reg t h => ⟨_, exec_of_badIndex (i := .movsC reg t) (decide_eq_true h) s⟩⟩

/-- Settles O8: the row's match, the valid index, and the index failure. -/
theorem movsToVfpCopiesTheCoreRegister : Obligations.MovsToVfpCopiesTheCoreRegister :=
  ⟨fun _ h => decode_of_match (i := .movsV 0 0) h, fun s reg t => exec_movsV reg t s,
    fun s reg t h => ⟨_, exec_of_badIndex (i := .movsV reg t) (decide_eq_true h) s⟩⟩

/-! Two writes to different places may be made in either order (R56, R85). -/

theorem writeSlot_comm {i j : Fin 32} (h : i ≠ j) (u v : Word) (s : State) :
    writeSlot i u (writeSlot j v s) = writeSlot j v (writeSlot i u s) := by
  simp only [writeSlot, Vector.set_comm u v (Fin.val_ne_of_ne h)]

theorem writeCore_comm {a b : Fin 16} (h : a ≠ b) (u v : Word) (s : State) :
    writeCore a u (writeCore b v s) = writeCore b v (writeCore a u s) := by
  simp only [writeCore, Vector.set_comm u v (Fin.val_ne_of_ne h)]

/-! The double exchange (R125 to R128). -/

/-- A to-core exchange that names one core register twice: the register ends with one of the two slot words, and
nothing else changes but the draw counter and the response (R121). -/
theorem exec_of_exchangeToCore_same {i : Instr} {form : ExchangeForm} {d r : Fin 16} {s : State}
    (h : exec i s = complete 0 0 (exchangeToCore form d r r s)) :
    ∃ w n, (w = s.vfp.slots[2 * d.val] ∨ w = s.vfp.slots[2 * d.val + 1]) ∧
      exec i s = .next { s with x := s.x.set r w, draws := n, response := some ⟨0, 0, 0⟩ } := by
  rcases writeCorePair_cases form r r (readSlot s (lowSlot d)) (readSlot s (highSlot d)) s with
    ⟨hne, -⟩ | ⟨-, w, hw, hwrite⟩
  · exact absurd rfl hne
  · refine ⟨w, s.draws + 1, hw, ?_⟩
    rw [h, exchangeToCore, hwrite, complete_eq]

/-- Settles O9: the row's match, two different core registers, one named twice, and the index failure. -/
theorem movdpToCoreSplitsTheDouble : Obligations.MovdpToCoreSplitsTheDouble := by
  refine ⟨fun c h => decode_of_match (i := .movdpC 0 0 0) h, fun s d low high hne => ?_,
    fun s d r => exec_of_exchangeToCore_same (exec_movdpC d r r s),
    fun s d low high h => ⟨_, exec_of_badIndex (i := .movdpC d low high) (decide_eq_true h) s⟩⟩
  rw [exec_movdpC, writeCorePair_of_ne hne, writeCore_comm hne.symm]
  rfl

/-- Settles O10: the row's match, the valid index, and the index failure. -/
theorem movdpToVfpJoinsTwoCoreRegisters : Obligations.MovdpToVfpJoinsTwoCoreRegisters :=
  ⟨fun _ h => decode_of_match (i := .movdpV 0 0 0) h, fun s d low high => exec_movdpV d low high s,
    fun s d low high h => ⟨_, exec_of_badIndex (i := .movdpV d low high) (decide_eq_true h) s⟩⟩

/-- Settles O11: the row's match, two different core registers, one named twice, and the index failure. -/
theorem movdsToCoreCopiesTheSlotPair : Obligations.MovdsToCoreCopiesTheSlotPair := by
  refine ⟨fun c h => decode_of_match (i := .movdsC 0 0 0) h, fun s d a b hne => ?_,
    fun s d r => exec_of_exchangeToCore_same (exec_movdsC d r r s),
    fun s d a b h => ⟨_, exec_of_badIndex (i := .movdsC d a b) (decide_eq_true h) s⟩⟩
  rw [exec_movdsC, writeCorePair_of_ne hne]
  rfl

/-- Settles O12: the row's match, the valid index, and the index failure. -/
theorem movdsToVfpWritesTheSlotPair : Obligations.MovdsToVfpWritesTheSlotPair :=
  ⟨fun _ h => decode_of_match (i := .movdsV 0 0 0) h, fun s d a b => exec_movdsV d a b s,
    fun s d a b h => ⟨_, exec_of_badIndex (i := .movdsV d a b) (decide_eq_true h) s⟩⟩

/-! The immediate load (R129, R130). -/

/-- LDI.S and WRS are one meaning, failing or not (R129). -/
theorem exec_ldiS_eq_exec_wrs (reg : Nat) (w : Word) (s : State) : exec (.ldiS reg w) s = exec (.wrs reg w) s := rfl

/-- Settles O13: the row's match, the valid index, the index failure, and the meaning shared with WRS. -/
theorem ldiSingleWritesTheImmediate : Obligations.LdiSingleWritesTheImmediate :=
  ⟨fun _ h => decode_of_match (i := .ldiS 0 0) h, fun s reg w => exec_ldiS reg w s,
    fun s reg w h => ⟨_, exec_of_badIndex (i := .ldiS reg w) (decide_eq_true h) s⟩,
    fun s reg w => exec_ldiS_eq_exec_wrs reg w s⟩

/-- Settles O14: the row's match, the two slots in either order, and the index failure. -/
theorem ldiDoubleClearsTheLowSlot : Obligations.LdiDoubleClearsTheLowSlot := by
  refine ⟨fun c h => decode_of_match (i := .ldiD 0 0) h, fun s d w => ?_,
    fun s d w h => ⟨_, exec_of_badIndex (i := .ldiD d w) (decide_eq_true h) s⟩⟩
  rw [exec_ldiD, writePair, writeSlot_comm (lowSlot_ne_highSlot d d).symm]
  rfl

/-! The register copy (R131, R132). -/

/-- Settles O15: the row's match, two valid indices, a failure of either, and the copy onto itself. -/
theorem cpySingleCopiesOneSlot : Obligations.CpySingleCopiesOneSlot := by
  refine ⟨fun c h => decode_of_match (i := .cpyS 0 0) h, fun s dest src => exec_cpyS dest src s,
    fun s dest src h => ⟨_, exec_of_badIndex (i := .cpyS dest src) ?_ s⟩, fun s r => ?_⟩
  · exact Bool.or_eq_true_iff.mpr (h.imp decide_eq_true decide_eq_true)
  · rw [exec_cpyS, writeSlot_eq_self rfl, complete_eq]

/-- Settles O16: the row's match, two valid indices, a failure of either, and the copy onto itself. -/
theorem cpyDoubleCopiesBothSlots : Obligations.CpyDoubleCopiesBothSlots := by
  refine ⟨fun c h => decode_of_match (i := .cpyD 0 0) h, fun s dest src => exec_cpyD dest src s,
    fun s dest src h => ⟨_, exec_of_badIndex (i := .cpyD dest src) ?_ s⟩, fun s d => ?_⟩
  · exact Bool.or_eq_true_iff.mpr (h.imp decide_eq_true decide_eq_true)
  · rw [exec_cpyD, writePair_eq_self rfl rfl, complete_eq]

/-! One core register named twice, and the two forms (R121, R133). -/

/-- The to-core half of R121: the register holds one of the two words; the other registers and the block are as they
were. -/
theorem frame_of_exchangeToCore_same {i : Instr} {form : ExchangeForm} {d r : Fin 16} {s : State}
    (h : exec i s = complete 0 0 (exchangeToCore form d r r s)) :
    ∃ t, exec i s = .next t ∧ (t.x[r] = s.vfp.slots[2 * d.val] ∨ t.x[r] = s.vfp.slots[2 * d.val + 1]) ∧
      t.vfp = s.vfp ∧ ∀ j : Fin 16, j ≠ r → t.x[j] = s.x[j] := by
  obtain ⟨w, n, hw, ht⟩ := exec_of_exchangeToCore_same h
  have hself : readCore (writeCore r w s) r = w := readCore_writeCore_self r w s
  exact ⟨_, ht, hw.imp hself.trans hself.trans, rfl, fun j hj => readCore_writeCore_ne hj.symm w s⟩

/-- The two to-VFP forms are one meaning (R133). -/
theorem exec_movdpV_eq_exec_movdsV (v : Nat) (a b : Fin 16) (s : State) :
    exec (.movdpV v a b) s = exec (.movdsV v a b) s := rfl

/-- Settles O17: the to-VFP forms read the register twice, the to-core forms draw between the two words. -/
theorem equalCoreRegistersInADoubleExchange : Obligations.EqualCoreRegistersInADoubleExchange := fun s d r =>
  ⟨⟨exec_movdpV d r r s, (exec_movdpV_eq_exec_movdsV d r r s).symm⟩,
    frame_of_exchangeToCore_same (exec_movdpC d r r s), frame_of_exchangeToCore_same (exec_movdsC d r r s)⟩

/-- Between two different core registers nothing is drawn, so the form does not matter. -/
theorem exec_movdpC_eq_exec_movdsC {a b : Fin 16} (hne : a ≠ b) (v : Nat) (s : State) :
    exec (.movdpC v a b) s = exec (.movdsC v a b) s := by
  simp only [exec, execMovdpC, execMovdsC, writeCorePair_of_ne hne]

/-- With one core register named twice the two forms can differ in that register and in nothing but it and the draw
counter. -/
theorem exec_movdpC_movdsC_same {s t u : State} {v : Nat} {a : Fin 16} (ht : exec (.movdpC v a a) s = .next t)
    (hu : exec (.movdsC v a a) s = .next u) :
    t.vfp = u.vfp ∧ t.response = u.response ∧ t.failures = u.failures ∧ ∀ j : Fin 16, j ≠ a → t.x[j] = u.x[j] := by
  cases hbad : badIndex (.movdpC v a a) with
  | true =>
    cases (exec_of_badIndex hbad s).symm.trans ht
    cases (exec_of_badIndex (i := .movdsC v a a) hbad s).symm.trans hu
    exact ⟨rfl, rfl, rfl, fun _ _ => rfl⟩
  | false =>
    obtain ⟨d, rfl⟩ := double_of_valid hbad
    obtain ⟨w, _, -, hpaired⟩ := exec_of_exchangeToCore_same (exec_movdpC d a a s)
    obtain ⟨w', _, -, hsplit⟩ := exec_of_exchangeToCore_same (exec_movdsC d a a s)
    cases hpaired.symm.trans ht
    cases hsplit.symm.trans hu
    refine ⟨rfl, rfl, rfl, fun j hj => ?_⟩
    exact (readCore_writeCore_ne hj.symm w s).trans (readCore_writeCore_ne hj.symm w' s).symm

/-- Operations of different rows have different headers (R79). -/
theorem encode_hdr_ne {i j : Instr} (h : matchOf i ≠ matchOf j) : (encode i).hdr ≠ (encode j).hdr := fun heq =>
  h (by rw [← encode_match, heq, encode_match])

/-- Settles O18: one meaning to the VFP, one between different core registers, a draw each for a register named twice,
and two rows for each direction. -/
theorem pairedAndSplitFormsAgree : Obligations.PairedAndSplitFormsAgree :=
  ⟨fun s v a b => exec_movdpV_eq_exec_movdsV v a b s, fun s v _ _ hne => exec_movdpC_eq_exec_movdsC hne v s,
    fun _ _ _ _ _ ht hu => exec_movdpC_movdsC_same ht hu,
    fun _ _ _ => ⟨encode_hdr_ne (by simp [matchOf]), encode_hdr_ne (by simp [matchOf])⟩⟩

end Sys2Proof.Machine
end

section
/-! PROOFS of 42_exception_aggregator.md. RAISE commits the aggregation of its bitmask and its snapshot or, on the
sentinel, fails: the statements about it are the laws of the aggregation, proved first. -/

namespace Sys2Proof.Machine

/-! The aggregation, step by step (R161) and as a whole (R166). -/

theorem hasCondition_iff {p : Params} {e : Word} : hasCondition p e = true ↔ e &&& p.condMask ≠ 0 :=
  decide_eq_true_iff

theorem hasCondition_eq_false_iff {p : Params} {e : Word} : hasCondition p e = false ↔ e &&& p.condMask = 0 :=
  decide_eq_false_iff_not.trans not_not

/-- The aggregation in the words of R161. -/
theorem aggregate_eq_ite (p : Params) (e c : Word) :
    aggregate p e c = (if e &&& p.condMask ≠ 0 then c &&& ~~~p.condMask else c) ||| e := by
  simp only [aggregate, workingValue, hasCondition_iff]

/-- R163: a result without a condition flag comes of two operands without one. -/
theorem and_condMask_eq_zero_of_aggregate {p : Params} {e c : Word} (h : aggregate p e c &&& p.condMask = 0) :
    e &&& p.condMask = 0 ∧ c &&& p.condMask = 0 := by
  cases hcond : hasCondition p e with
  | true =>
    rw [aggregate_and_condMask_of_hasCondition hcond] at h
    exact absurd h (hasCondition_iff.mp hcond)
  | false =>
    rw [aggregate_and_condMask_of_not_hasCondition hcond] at h
    exact ⟨hasCondition_eq_false_iff.mp hcond, h⟩

/-- R164, accumulate: a bit outside the mask is the or of the two operands' bits. -/
theorem aggregate_getLsbD_of_not_condMask {p : Params} {b : Nat} (hb : p.condMask.getLsbD b = false) (e c : Word) :
    (aggregate p e c).getLsbD b = (c.getLsbD b || e.getLsbD b) := by
  rw [aggregate_getLsbD, hb, Bool.and_false, Bool.not_false, Bool.and_true, Bool.or_comm]

/-- R166, empty bitmask. -/
theorem aggregate_empty (p : Params) (c : Word) : aggregate p 0 c = c := by
  simp [aggregate_eq_ite]

/-- R166, lower bound: the whole bitmask is in the result. -/
theorem aggregate_and_bitmask (p : Params) (e c : Word) : aggregate p e c &&& e = e := by
  apply BitVec.eq_of_getLsbD_eq
  intro b _
  rw [BitVec.getLsbD_and, aggregate_getLsbD]
  cases e.getLsbD b <;> simp

/-- R166, sticky monotone: outside the mask the whole snapshot is in the result. -/
theorem aggregate_sticky_monotone (p : Params) (e c : Word) :
    (aggregate p e c &&& ~~~p.condMask) &&& (c &&& ~~~p.condMask) = c &&& ~~~p.condMask := by
  apply BitVec.eq_of_getLsbD_eq
  intro b _
  simp only [BitVec.getLsbD_and, BitVec.getLsbD_not]
  cases hmask : p.condMask.getLsbD b with
  | true => simp
  | false =>
    rw [aggregate_getLsbD_of_not_condMask hmask]
    cases c.getLsbD b <;> simp

/-- R166, idempotent: the result as the next snapshot. -/
theorem aggregate_aggregate (p : Params) (e c : Word) : aggregate p e (aggregate p e c) = aggregate p e c := by
  apply BitVec.eq_of_getLsbD_eq
  intro b _
  simp only [aggregate_getLsbD]
  cases e.getLsbD b <;> cases hasCondition p e && p.condMask.getLsbD b <;> simp

/-! What RAISE leaves. -/

/-- The committed word, whatever was stored (R161, R165). -/
theorem fpscr_of_exec_raise {s t : State} {e iw c : Word} (he : e ≠ s.params.errorSentinel)
    (h : exec (.raise e iw c) s = .next t) : t.vfp.fpscr = aggregate s.params e c := by
  cases (exec_raise_commit he iw c).symm.trans h
  rfl

/-- On the sentinel nothing but the response and the environment's record changes (R162). -/
theorem exec_raise_fatal_frame (iw c : Word) (s : State) :
    ∃ f, exec (.raise s.params.errorSentinel iw c) s =
      .next { s with response := some ⟨2, iw, 0⟩, failures := f } :=
  ⟨_, exec_raise_fatal iw c s⟩

/-- Status 2 is the fatal failure's alone (R182). -/
theorem raise_of_status_two {i : Instr} {s t : State} {r : Response} (h : exec i s = .next t)
    (hr : t.response = some r) (hstatus : r.status = 2) : ∃ iw c, i = .raise s.params.errorSentinel iw c := by
  rcases exec_cases i s with ⟨-, hindex⟩ | ⟨iw, c, hi, -⟩ | ⟨-, r0, r1, u, hdone, -⟩
  · cases hindex.symm.trans h
    cases hr
    cases hstatus
  · exact ⟨iw, c, hi⟩
  · cases hdone.symm.trans h
    cases hr
    cases hstatus

/-- RAISE writes FPSCR and nothing else of the block and the core, on both paths (R166, frame). -/
theorem exec_raise_keeps_others {s t : State} {e iw c : Word} (h : exec (.raise e iw c) s = .next t) :
    t.vfp.fpexc = s.vfp.fpexc ∧ t.vfp.fpsid = s.vfp.fpsid ∧ t.vfp.slots = s.vfp.slots ∧ t.x = s.x := by
  obtain ⟨hfpsid, -⟩ := (delivered_of_exec h).frame
  obtain ⟨hfpexc, -, hslots, hcore⟩ := exec_writesOnlyItsOwn (.raise e iw c) s t h
  exact ⟨hfpexc.resolve_right (by simp), hfpsid, hslots.resolve_right (by simp [writesSlots]),
    hcore.resolve_right (by simp [writesCore])⟩

/-! The statements. -/

/-- Settles O19: the row's match, the sentinel, and the aggregation with and without a condition flag. -/
theorem raiseCommitsTheAggregation : Obligations.RaiseCommitsTheAggregation := by
  refine ⟨fun c h => decode_of_match (i := .raise 0 0 0) h, fun s iw c => exec_raise_fatal_frame iw c s,
    fun s e iw c he hcond => ?_, fun s e iw c he hnone => ?_⟩
  · rw [exec_raise_commit he, aggregate_eq_ite, if_pos hcond]
    rfl
  · rw [exec_raise_commit he, aggregate_eq_ite, if_neg (not_not.mpr hnone)]
    rfl

/-- Settles O20, by the aggregation under the mask. -/
theorem conditionFlagsReplace : Obligations.ConditionFlagsReplace := by
  intro s t e iw c he h
  rw [fpscr_of_exec_raise he h]
  exact ⟨fun hcond => aggregate_and_condMask_of_hasCondition (hasCondition_iff.mpr hcond) c,
    fun hnone => aggregate_and_condMask_of_not_hasCondition (hasCondition_eq_false_iff.mpr hnone) c,
    and_condMask_eq_zero_of_aggregate⟩

/-- Settles O22, by the aggregation outside the mask. -/
theorem stickyBitsAccumulate : Obligations.StickyBitsAccumulate := by
  intro s t e iw c b he h hb
  rw [fpscr_of_exec_raise he h, aggregate_getLsbD_of_not_condMask hb]
  exact ⟨rfl, fun hc => by rw [hc, Bool.true_or]⟩

/-- Settles O23: the sentinel fails, any other bitmask commits, and no other outcome has status 2. -/
theorem onlyTheSentinelIsFatal : Obligations.OnlyTheSentinelIsFatal :=
  ⟨fun s iw c => exec_raise_fatal_frame iw c s,
    fun s e iw c he => ⟨_, exec_raise_commit he iw c, rfl, aggregate_eq_ite s.params e c⟩,
    fun _ _ _ _ h hr hstatus => raise_of_status_two h hr hstatus⟩

/-- Settles O24: the answer speaks of the stored FPSCR nowhere, and a bit of the aggregation is from an operand. -/
theorem raiseStartsFromTheSnapshot : Obligations.RaiseStartsFromTheSnapshot := by
  refine ⟨fun s e iw c f he => ?_, fun s t e iw he hnone h => ?_, fun s t e iw c b he h _ hc hbit => ?_⟩
  · exact (exec_raise_commit (by exact he) iw c).trans (exec_raise_commit he iw c).symm
  · rw [fpscr_of_exec_raise he h, aggregate_eq_ite, if_neg (not_not.mpr hnone)]
  · rw [fpscr_of_exec_raise he h, aggregate_getLsbD, hc, hbit, Bool.false_and, Bool.or_false]

/-- Settles O25: the laws of the aggregation on the committed path, and the frame of both paths. -/
theorem raiseLaws : Obligations.RaiseLaws := by
  refine ⟨fun s t e iw c he h => ?_, fun s t e iw c h => ?_⟩
  · have hword := fpscr_of_exec_raise he h
    have ⟨hreplace, hkeep, _⟩ := conditionFlagsReplace s t e iw c he h
    refine ⟨?_, ?_, ?_, fun u v iw' hu hv => ?_, hreplace, hkeep, fun iw' => ?_⟩
    · rintro rfl
      exact hword.trans (aggregate_empty s.params c)
    · rw [hword, aggregate_and_bitmask]
    · rw [hword, aggregate_sticky_monotone]
    · rw [fpscr_of_exec_raise (hu ▸ he) hv, hu, hword, aggregate_aggregate]
    · exact (exec_raise_commit he iw' c).trans ((exec_raise_commit he iw c).symm.trans h)
  · obtain ⟨hfpexc, hfpsid, hslots, hcore⟩ := exec_raise_keeps_others h
    refine ⟨hfpexc, hfpsid, hslots, hcore, ?_⟩
    rintro rfl
    cases (exec_raise_fatal iw c s).symm.trans h
    rfl

end Sys2Proof.Machine
end

section
/-! PROOFS of 60_exceptions.md. What a command ends with and what a failure leaves; and one simulation: two states whose
difference no operation sees run alike, which says both that a failed command is invisible to later ones and that FPEXC
and FPSCR gate nothing. -/

namespace Sys2Proof.Machine

/-! The outcome of an operation (R180 to R182, R185). -/

/-- The three outcomes of an operation, each with its status and what it adds to the environment's record. -/
theorem exec_outcome (i : Instr) (s : State) : ∃ t r, exec i s = .next t ∧ t.response = some r ∧
    ((badIndex i = true ∧ r.status = 1 ∧ t.failures = s.failures ++ [.invalidRegisterIndex]) ∨
      (∃ iw c, i = .raise s.params.errorSentinel iw c ∧ r.status = 2 ∧
        t.failures = s.failures ++ [.fatalFloatingPointFault iw]) ∨
      (badIndex i = false ∧ r.status = 0 ∧ t.failures = s.failures)) := by
  rcases exec_cases i s with ⟨hbad, h⟩ | ⟨iw, c, hi, h⟩ | ⟨hvalid, r0, r1, u, h, -, -, -, -, -, hfailures⟩
  · exact ⟨_, _, h, rfl, .inl ⟨hbad, rfl, rfl⟩⟩
  · exact ⟨_, _, h, rfl, .inr (.inl ⟨iw, c, hi, rfl, rfl⟩)⟩
  · exact ⟨_, _, h, rfl, .inr (.inr ⟨hvalid, rfl, hfailures⟩)⟩

/-- Settles O27: a bad index fails, and of the other two outcomes neither has status 1. -/
theorem indexFailureExactlyOutOfRange : Obligations.IndexFailureExactlyOutOfRange := by
  refine ⟨fun i s hbad => ⟨_, exec_of_badIndex hbad s⟩, fun i s hvalid => ?_, fun _ _ _ _ _ => ⟨rfl, rfl⟩⟩
  obtain ⟨t, r, h, hr, ⟨hbad, -⟩ | ⟨-, -, -, hstatus, -⟩ | ⟨-, hstatus, -⟩⟩ := exec_outcome i s
  · cases hvalid.symm.trans hbad
  · exact ⟨t, r, h, hr, by rw [hstatus]; decide⟩
  · exact ⟨t, r, h, hr, by rw [hstatus]; decide⟩

/-- Settles O29: the three outcomes of an operation, and the record of a reserved header. -/
theorem everyOperationHasOneOutcome : Obligations.EveryOperationHasOneOutcome := by
  refine ⟨fun i s => ?_, fun s c rest e hin he =>
    ⟨_, (step_command hin).trans (runCommand_of_decode_error he (takeCommand rest s)), rfl⟩⟩
  obtain ⟨t, r, h, hr, ⟨hbad, hstatus, hrecord⟩ | ⟨iw, c, hi, hstatus, hrecord⟩ | ⟨-, hstatus, hrecord⟩⟩ :=
    exec_outcome i s
  · refine ⟨t, r, h, hr, .inr (.inl ⟨hstatus, hrecord, ?_, ?_⟩)⟩
    · rintro sel v rfl
      cases hbad
    · rintro e iw c rfl
      cases hbad
  · exact ⟨t, r, h, hr, .inr (.inr ⟨hstatus, _, iw, c, hi, hrecord⟩)⟩
  · exact ⟨t, r, h, hr, .inl ⟨hstatus, hrecord⟩⟩

/-! What a failure depends on and leaves (R180). -/

/-- An operation that ended with a failure ends with it in every state with the same parameters. -/
theorem exec_fails_of_status_ne {i : Instr} {s t : State} {r : Response} (h : exec i s = .next t)
    (hr : t.response = some r) (hstatus : r.status ≠ 0) :
    ∃ f, ∀ s', s'.params = s.params → exec i s' = fail f s' := by
  rcases exec_fails_or_valid i s.params with hfails | ⟨hvalid, hne⟩
  · exact hfails
  · obtain ⟨t', r', h', hr', ⟨hbad, -⟩ | ⟨iw, c, hi, -⟩ | ⟨-, hok, -⟩⟩ := exec_outcome i s
    · cases hvalid.symm.trans hbad
    · exact absurd hi (hne iw c)
    · cases h'.symm.trans h
      cases hr'.symm.trans hr
      exact absurd hok hstatus

/-- So does a command, one with a reserved header included (R183). -/
theorem runCommand_fails_of_status_ne {c : Command} {s t : State} {r : Response} (h : runCommand c s = .next t)
    (hr : t.response = some r) (hstatus : r.status ≠ 0) :
    ∃ f, ∀ s', s'.params = s.params → runCommand c s' = fail f s' := by
  cases hdec : decode c with
  | error e => exact ⟨.invalidCommand, fun s' _ => runCommand_of_decode_error hdec s'⟩
  | ok i =>
    simp only [runCommand_of_decode_ok hdec] at h ⊢
    exact exec_fails_of_status_ne h hr hstatus

/-- Settles O26: the status of the three outcomes, and a failure that is the same for any core registers. -/
theorem failureChangesNothing : Obligations.FailureChangesNothing := by
  refine ⟨fun i s => ?_, fun i s t r h hr hstatus => ?_, fun s t c rest r hin h hr hstatus => ?_⟩
  · obtain ⟨t, r, h, hr, ⟨-, hstatus, -⟩ | ⟨-, -, -, hstatus, -⟩ | ⟨-, hstatus, -⟩⟩ := exec_outcome i s
    · exact ⟨t, r, h, hr, .inr (.inl hstatus)⟩
    · exact ⟨t, r, h, hr, .inr (.inr hstatus)⟩
    · exact ⟨t, r, h, hr, .inl hstatus⟩
  · obtain ⟨f, hfail⟩ := exec_fails_of_status_ne h hr hstatus
    cases (hfail s rfl).symm.trans h
    exact ⟨rfl, rfl, rfl, rfl, rfl, rfl, fun y => hfail (withCore y s) rfl⟩
  · rw [step_command hin] at h
    obtain ⟨f, hfail⟩ := runCommand_fails_of_status_ne h hr hstatus
    cases (hfail _ rfl).symm.trans h
    refine ⟨rfl, rfl, fun y => ?_⟩
    exact (step_command (s := withCore y s) hin).trans (hfail (takeCommand rest (withCore y s)) rfl)

/-! States whose difference no operation sees. -/

/-- If the first answer is a next state, so is the second, and the two states are related. -/
def Follows (R : State → State → Prop) (a b : Answer) : Prop := ∀ t, a = .next t → ∃ u, b = .next u ∧ R t u

theorem follows_next {R : State → State → Prop} {t u : State} (h : R t u) : Follows R (.next t) (.next u) := by
  rintro _ ⟨⟩
  exact ⟨u, rfl, h⟩

/-- A relation between states whose difference no operation sees: the two states show the same to everything that is
read, and every write, every delivery and every input taken keeps them related. -/
structure UnseenDifference (R : State → State → Prop) : Prop where
  params : ∀ {s s'}, R s s' → s.params = s'.params
  inputs : ∀ {s s'}, R s s' → s.inputs = s'.inputs
  readSlot : ∀ {s s'}, R s s' → ∀ i, readSlot s i = readSlot s' i
  readCore : ∀ {s s'}, R s s' → ∀ t, readCore s t = readCore s' t
  writeSlot : ∀ {s s'}, R s s' → ∀ i w, R (writeSlot i w s) (writeSlot i w s')
  writeFpscr : ∀ {s s'}, R s s' → ∀ w, R (writeFpscr w s) (writeFpscr w s')
  writeFpexc : ∀ {s s'}, R s s' → ∀ w, R (writeFpexc w s) (writeFpexc w s')
  writeCore : ∀ {s s'}, R s s' → ∀ t w, R (writeCore t w s) (writeCore t w s')
  writeCorePair : ∀ {s s'}, R s s' → ∀ form a b u v,
    R (writeCorePair form a b u v s) (writeCorePair form a b u v s')
  complete : ∀ {s s'}, R s s' → ∀ r0 r1, Follows R (complete r0 r1 s) (complete r0 r1 s')
  fail : ∀ {s s'}, R s s' → ∀ f, Follows R (fail f s) (fail f s')
  resetBlock : ∀ {s s'}, R s s' → R (resetBlock s) (resetBlock s')
  takeReset : ∀ {s s'}, R s s' → ∀ rest, R (takeReset rest s) (takeReset rest s')
  takeCommand : ∀ {s s'}, R s s' → ∀ rest, R (takeCommand rest s) (takeCommand rest s')

namespace UnseenDifference

variable {R : State → State → Prop} (hR : UnseenDifference R) {s s' : State} (h : R s s')
include hR h

theorem writePair (d : Fin 16) (lo hi : Word) : R (writePair d lo hi s) (writePair d lo hi s') :=
  hR.writeSlot (hR.writeSlot h (lowSlot d) lo) (highSlot d) hi

theorem withSingle (n : Nat) {go go' : Fin 32 → Answer} (hgo : ∀ i, Follows R (go i) (go' i)) :
    Follows R (withSingle n s go) (withSingle n s' go') := by
  by_cases hn : n < 32
  · simpa only [Machine.withSingle, hn, dite_true] using hgo ⟨n, hn⟩
  · simpa only [Machine.withSingle, hn, dite_false] using hR.fail h .invalidRegisterIndex

theorem withDouble (n : Nat) {go go' : Fin 16 → Answer} (hgo : ∀ d, Follows R (go d) (go' d)) :
    Follows R (withDouble n s go) (withDouble n s' go') := by
  by_cases hn : n < 16
  · simpa only [Machine.withDouble, hn, dite_true] using hgo ⟨n, hn⟩
  · simpa only [Machine.withDouble, hn, dite_false] using hR.fail h .invalidRegisterIndex

/-- Every operation answers alike in two such states: what it reads is the same, and what it writes keeps them so. -/
theorem exec (i : Instr) : Follows R (exec i s) (exec i s') := by
  have hslot := hR.readSlot h
  have hcore := hR.readCore h
  have single (n : Nat) {go go' : Fin 32 → Answer} := hR.withSingle h n (go := go) (go' := go')
  have double (n : Nat) {go go' : Fin 16 → Answer} := hR.withDouble h n (go := go) (go' := go')
  cases i with
  | msr sel v =>
    simp only [Machine.exec, execMsr]
    split_ifs
    · exact hR.complete (hR.writeFpscr h v) 0 0
    · exact hR.complete (hR.writeFpexc h v) 0 0
    · exact hR.complete h 0 0
  | raise e iw c =>
    simp only [Machine.exec, execRaise, hR.params h]
    split
    · exact hR.fail h _
    · exact hR.complete (hR.writeFpscr h _) _ 0
  | rds n =>
    simp only [Machine.exec, execRds, hslot]
    exact single n fun _ => hR.complete h _ _
  | rdd n =>
    simp only [Machine.exec, execRdd, readDouble, hslot]
    exact double n fun _ => hR.complete h _ _
  | wrs n w | movsV n t | ldiS n w =>
    simp only [Machine.exec, execWrs, execMovsV, execLdiS, hcore]
    exact single n fun _ => hR.complete (hR.writeSlot h _ _) 0 0
  | movsC n t =>
    simp only [Machine.exec, execMovsC, hslot]
    exact single n fun _ => hR.complete (hR.writeCore h t _) 0 0
  | wrd n v | movdpV n a b | movdsV n a b | ldiD n w =>
    simp only [Machine.exec, execWrd, execMovdpV, execMovdsV, execLdiD, writeDouble, hcore]
    exact double n fun _ => hR.complete (hR.writePair h _ _ _) 0 0
  | movdpC n a b | movdsC n a b =>
    simp only [Machine.exec, execMovdpC, execMovdsC, hslot]
    exact double n fun _ => hR.complete (hR.writeCorePair h _ a b _ _) 0 0
  | cpyS n m =>
    simp only [Machine.exec, execCpyS, hslot]
    exact single n fun _ => single m fun _ => hR.complete (hR.writeSlot h _ _) 0 0
  | cpyD n m =>
    simp only [Machine.exec, execCpyD, hslot]
    exact double n fun _ => double m fun _ => hR.complete (hR.writePair h _ _ _) 0 0

theorem runCommand (c : Command) : Follows R (runCommand c s) (runCommand c s') := by
  cases hdec : decode c with
  | error e =>
    simp only [runCommand_of_decode_error hdec]
    exact hR.fail h .invalidCommand
  | ok i =>
    simp only [runCommand_of_decode_ok hdec]
    exact hR.exec h i

theorem step : Follows R (step s) (step s') := by
  match hin : s.inputs with
  | [] => rw [step_empty hin]; nofun
  | .reset :: rest =>
    rw [step_reset hin, step_reset ((hR.inputs h).symm.trans hin)]
    exact follows_next (hR.resetBlock (hR.takeReset h rest))
  | .command c :: rest =>
    rw [step_command hin, step_command ((hR.inputs h).symm.trans hin)]
    exact hR.runCommand (hR.takeCommand h rest) c

omit h in
/-- Two such states run alike for any number of steps. -/
theorem runSteps (n : Nat) {s s' : State} (h : R s s') : Follows R (runSteps n s) (runSteps n s') := by
  induction n generalizing s s' with
  | zero => exact follows_next h
  | succ n ih =>
    match hin : s.inputs with
    | [] => rw [runSteps_succ_refused (step_empty hin)]; nofun
    | i :: rest =>
      obtain ⟨t, ht, -⟩ := step_takes_first_input hin
      obtain ⟨t', ht', hrel⟩ := hR.step h t ht
      rw [runSteps_succ_next ht, runSteps_succ_next ht']
      exact ih hrel

end UnseenDifference

/-! A failed command and later ones (R189, R191). -/

/-- The second state is the first but for what a failed command leaves: the position, the response and the
environment's record. -/
def DiffersInRecord (s s' : State) : Prop :=
  ∃ p r f, s' = { s with position := p, response := r, failures := f }

theorem unseenDifference_differsInRecord : UnseenDifference DiffersInRecord where
  params := by rintro s _ ⟨p, r, f, rfl⟩; rfl
  inputs := by rintro s _ ⟨p, r, f, rfl⟩; rfl
  readSlot := by rintro s _ ⟨p, r, f, rfl⟩ i; rfl
  readCore := by rintro s _ ⟨p, r, f, rfl⟩ t; rfl
  writeSlot := by rintro s _ ⟨p, r, f, rfl⟩ i w; exact ⟨p, r, f, rfl⟩
  writeFpscr := by rintro s _ ⟨p, r, f, rfl⟩ w; exact ⟨p, r, f, rfl⟩
  writeFpexc := by rintro s _ ⟨p, r, f, rfl⟩ w; exact ⟨p, r, f, rfl⟩
  writeCore := by rintro s _ ⟨p, r, f, rfl⟩ t w; exact ⟨p, r, f, rfl⟩
  writeCorePair := by
    rintro s _ ⟨p, r, f, rfl⟩ form a b u v
    unfold writeCorePair
    split <;> exact ⟨p, r, f, rfl⟩
  complete := by rintro s _ ⟨p, r, f, rfl⟩ r0 r1; exact follows_next ⟨p, some ⟨0, r0, r1⟩, f, rfl⟩
  fail := by rintro s _ ⟨p, r, f, rfl⟩ e; exact follows_next ⟨p, some (failureResponse e), f ++ [e], rfl⟩
  resetBlock := by rintro s _ ⟨p, r, f, rfl⟩; exact ⟨p, r, f, rfl⟩
  takeReset := by rintro s _ ⟨p, r, f, rfl⟩ rest; exact ⟨p, r, f, rfl⟩
  takeCommand := by rintro s _ ⟨p, r, f, rfl⟩ rest; exact ⟨p + 1, r, f, rfl⟩

/-- Settles O31: the failure changed only what no operation sees, and the two runs go on alike. -/
theorem failedCommandIsInvisibleToLaterOnes : Obligations.FailedCommandIsInvisibleToLaterOnes := by
  intro s t c rest r hin h hr hstatus n u hu
  have hdiff : DiffersInRecord t { s with inputs := rest } := by
    rw [step_command hin] at h
    obtain ⟨f, hfail⟩ := runCommand_fails_of_status_ne h hr hstatus
    cases (hfail _ rfl).symm.trans h
    exact ⟨s.position, s.response, s.failures, rfl⟩
  obtain ⟨v, hv, p, r, f, rfl⟩ := unseenDifference_differsInRecord.runSteps n hdiff u hu
  exact ⟨_, hv, rfl, rfl, rfl, rfl⟩

/-! FPEXC and FPSCR (R197). -/

/-- The second state is the first but for FPEXC and FPSCR. -/
def DiffersInStatus (s s' : State) : Prop :=
  ∃ e f, s' = { s with vfp := { s.vfp with fpexc := e, fpscr := f } }

theorem unseenDifference_differsInStatus : UnseenDifference DiffersInStatus where
  params := by rintro s _ ⟨e, f, rfl⟩; rfl
  inputs := by rintro s _ ⟨e, f, rfl⟩; rfl
  readSlot := by rintro s _ ⟨e, f, rfl⟩ i; rfl
  readCore := by rintro s _ ⟨e, f, rfl⟩ t; rfl
  writeSlot := by rintro s _ ⟨e, f, rfl⟩ i w; exact ⟨e, f, rfl⟩
  writeFpscr := by rintro s _ ⟨e, f, rfl⟩ w; exact ⟨e, w, rfl⟩
  writeFpexc := by rintro s _ ⟨e, f, rfl⟩ w; exact ⟨w, f, rfl⟩
  writeCore := by rintro s _ ⟨e, f, rfl⟩ t w; exact ⟨e, f, rfl⟩
  writeCorePair := by
    rintro s _ ⟨e, f, rfl⟩ form a b u v
    unfold writeCorePair
    split <;> exact ⟨e, f, rfl⟩
  complete := by rintro s _ ⟨e, f, rfl⟩ r0 r1; exact follows_next ⟨e, f, rfl⟩
  fail := by rintro s _ ⟨e, f, rfl⟩ err; exact follows_next ⟨e, f, rfl⟩
  resetBlock := by rintro s _ ⟨e, f, rfl⟩; exact ⟨0, 0, rfl⟩
  takeReset := by rintro s _ ⟨e, f, rfl⟩ rest; exact ⟨e, f, rfl⟩
  takeCommand := by rintro s _ ⟨e, f, rfl⟩ rest; exact ⟨e, f, rfl⟩

/-- Settles O32: no operation sees the two words, so the two runs go on alike. -/
theorem fpexcAndFpscrGateNothing : Obligations.FpexcAndFpscrGateNothing := by
  intro n s t e f h
  obtain ⟨u, hu, e', f', rfl⟩ := unseenDifference_differsInStatus.runSteps n ⟨e, f, rfl⟩ t h
  exact ⟨_, hu, rfl, rfl, rfl, rfl, rfl, rfl, rfl, rfl, rfl⟩

end Sys2Proof.Machine
end
